-- ==== Sys2Proof/Word.lean ====
section
/-! DEFINITION. The word types of the block: every value is unsigned (spec/00_scope.md R13). -/

namespace Sys2Proof

/-- A byte of engine memory or of the wire (30_encoding.md R100). -/
abbrev Byte := BitVec 8

/-- A colour or a window coordinate, 16 bits (00_scope.md R17, 30_encoding.md R102). -/
abbrev Half := BitVec 16

/-- An operand of the command word, an engine address or the response, 32 bits (10_state.md R22, R29). -/
abbrev Word := BitVec 32

/-- The command word CW, 168 bits (30_encoding.md R90). -/
abbrev CommandWord := BitVec 168

end Sys2Proof
end

