-- ==== Sys2Proof/Config.lean ====
section
/-! DEFINITION. The parameters of the block (spec/00_scope.md R7 to R12, R18) and its one free value. -/

namespace Sys2Proof

/-- PROFILE_KIND (00_scope.md R10, R18). -/
inductive ProfileKind where
  | full
  | minimal
deriving DecidableEq, Repr

/-- One entry of INIT_TABLE: command byte, parameter bytes, optional post-delay in milliseconds
(00_scope.md R8; the delay's 16 bits are those of 30_encoding.md R108). -/
structure InitEntry where
  cmd    : Byte
  params : List Byte
  delay  : Option (BitVec 16)
deriving DecidableEq, Repr

/-- ORIENT_TABLE: the fixed bits of each of the four rotations (00_scope.md R8). -/
structure OrientTable where
  r0 : Byte
  r1 : Byte
  r2 : Byte
  r3 : Byte
deriving DecidableEq, Repr

/-- A parameter set of the block: 00_scope.md R7 (platform), R8 (profile), R9 (timing), R10 (others). -/
structure Params where
  /-- PANEL_W, the panel's width in pixels at rotation 0 (R7). -/
  panelW : Nat
  /-- PANEL_H, the panel's height in pixels at rotation 0 (R7). -/
  panelH : Nat
  /-- INIT_TABLE (R8). -/
  initTable : List InitEntry
  /-- ORIENT_TABLE (R8). -/
  orientTable : OrientTable
  /-- COLOR_ORDER_BIT (R8). -/
  colorOrderBit : Byte
  /-- M_RO, the row-order flag's mask (R8). -/
  maskRo : Byte
  /-- M_CO, the column-order flag's mask (R8). -/
  maskCo : Byte
  /-- M_EX, the exchange flag's mask (R8). -/
  maskEx : Byte
  /-- M_BGR, the colour-order flag's mask (R8); R161: no rule of RX reads it. -/
  maskBgr : Byte
  /-- OP_COLRANGE (R8). -/
  opColrange : Byte
  /-- OP_ROWRANGE (R8). -/
  opRowrange : Byte
  /-- OP_MEMWRITE (R8). -/
  opMemwrite : Byte
  /-- OP_ORIENT (R8). -/
  opOrient : Byte
  /-- OP_DISPON (R8). -/
  opDispon : Byte
  /-- T_RST_HOLD_MS (R9). -/
  tRstHold : Nat
  /-- T_RST_SETTLE_MS (R9). -/
  tRstSettle : Nat
  /-- T_DISPON_MS (R9). -/
  tDispon : Nat
  /-- DEFAULT_ROTATION (R10). -/
  defaultRotation : BitVec 2
  /-- DEFAULT_COLOR (R10). -/
  defaultColor : Half
  /-- FILL_BATCH_PIXELS (R10). -/
  fillBatchPixels : Nat
  /-- MEM_BYTES (R10). -/
  memBytes : Nat
  /-- HandleValid (R10), as the closed ranges of 32-bit values it holds on. DESIGN CHOICE, safe, log 2:
  every predicate on 32-bit values is such a list. -/
  handleRanges : List (Word × Word)
  /-- PROFILE_KIND (R10, R18). -/
  profile : ProfileKind
deriving DecidableEq, Repr

/-- BUF_BYTES = PANEL_W * PANEL_H * 2 (00_scope.md R10). -/
def Params.bufBytes (p : Params) : Nat := p.panelW * p.panelH * 2

/-- BUF0_BASE (00_scope.md R10, 20_memory.md R61). -/
def buf0Base : Nat := 0

/-- FILL_BATCH_THRESHOLD (00_scope.md R10): fixed, not open. -/
def fillBatchThreshold : Nat := 32

/-- T_RST_HOLD_MIN, RX's floor for the reset pulse (41_receiver.md R159). -/
def rstHoldMin : Nat := 10

/-- T_RST_SETTLE_MIN, RX's floor for the settle time (41_receiver.md R159). -/
def rstSettleMin : Nat := 100

/-- Exactly one bit of a mask is set (00_scope.md R11 (b)). -/
def oneBit (m : Byte) : Bool := decide (m ≠ 0 ∧ m &&& (m - 1) = 0)

/-- The four entries of the orientation table in the order of the rotations (00_scope.md R8). -/
def OrientTable.toList (t : OrientTable) : List Byte := [t.r0, t.r1, t.r2, t.r3]

/-- The five named command bytes (00_scope.md R8). -/
def Params.namedCommands (p : Params) : List Byte :=
  [p.opColrange, p.opRowrange, p.opMemwrite, p.opOrient, p.opDispon]

/-- The four flag masks (00_scope.md R8). -/
def Params.masks (p : Params) : List Byte := [p.maskRo, p.maskCo, p.maskEx, p.maskBgr]

/-- 00_scope.md R11 (a): the five command bytes are pairwise different. -/
def Params.commandsDiffer (p : Params) : Bool := decide p.namedCommands.Nodup

/-- 00_scope.md R11 (b): four pairwise different one-bit masks. -/
def Params.masksOk (p : Params) : Bool := p.masks.all oneBit && decide p.masks.Nodup

/-- 00_scope.md R11 (c): table entries and colour-order bit hold only bits of their masks. -/
def Params.orientBitsOk (p : Params) : Bool :=
  p.orientTable.toList.all (fun o => decide (o &&& ~~~(p.maskRo ||| p.maskCo ||| p.maskEx) = 0))
    && decide (p.colorOrderBit &&& ~~~p.maskBgr = 0)

/-- 00_scope.md R11 (d): the exchange flag is set exactly for rotations 1 and 3. -/
def Params.exchangeOk (p : Params) : Bool :=
  decide (p.orientTable.r0 &&& p.maskEx = 0 ∧ p.orientTable.r1 &&& p.maskEx ≠ 0
    ∧ p.orientTable.r2 &&& p.maskEx = 0 ∧ p.orientTable.r3 &&& p.maskEx ≠ 0)

/-- The bounds of R7 on the panel's sides. -/
def Params.panelOk (p : Params) : Bool :=
  decide (1 ≤ p.panelW ∧ p.panelW ≤ 65535 ∧ 1 ≤ p.panelH ∧ p.panelH ≤ 65535
    ∧ p.panelW * p.panelH ≤ 2 ^ 30)

/-- The bounds of R8 on the init table. -/
def Params.tableOk (p : Params) : Bool :=
  decide (p.initTable.length ≤ 255) && p.initTable.all (fun e => decide (e.params.length ≤ 127))

/-- The bounds of R9 and R10. MEM_BYTES is at most 2^32 by 20_memory.md R63 (log 15). -/
def Params.boundsOk (p : Params) : Bool :=
  decide (10 ≤ p.tRstHold ∧ 100 ≤ p.tRstSettle ∧ 1 ≤ p.fillBatchPixels
    ∧ 2 * p.bufBytes ≤ p.memBytes ∧ p.memBytes ≤ 2 ^ 32)

/-- A well-formed parameter set (00_scope.md R11). -/
def Params.wf (p : Params) : Bool :=
  p.commandsDiffer && p.masksOk && p.orientBitsOk && p.exchangeOk && p.panelOk && p.tableOk
    && p.boundsOk

/-- A parameter set together with the proof that it is well-formed: 00_scope.md R11 makes that a
precondition of every rule, and 93_implementation_defined.md U17 says that a model is not instantiated
without it. -/
structure Config extends Params where
  ok : toParams.wf = true
deriving DecidableEq, Repr

/-- REFCFG's parameters (00_scope.md R12). -/
def Params.ref : Params where
  panelW := 160
  panelH := 128
  initTable := [⟨0x01, [], some 150⟩, ⟨0x11, [], some 120⟩, ⟨0x3A, [0x05], none⟩]
  orientTable := ⟨0x00, 0x60, 0xC0, 0xA0⟩
  colorOrderBit := 0x08
  maskRo := 0x80
  maskCo := 0x40
  maskEx := 0x20
  maskBgr := 0x08
  opColrange := 0x2A
  opRowrange := 0x2B
  opMemwrite := 0x2C
  opOrient := 0x36
  opDispon := 0x29
  tRstHold := 10
  tRstSettle := 120
  tDispon := 100
  defaultRotation := 0
  defaultColor := 0x0000
  fillBatchPixels := 64
  memBytes := 81920
  handleRanges := [(0x00000001, 0xFFFFFFFF)]
  profile := .full

/-- TINYCFG's parameters (00_scope.md R12). -/
def Params.tiny : Params :=
  { Params.ref with panelW := 4, panelH := 3, memBytes := 48, fillBatchPixels := 4 }

/-- REFCFG, the reference instance (00_scope.md R12). -/
def Config.ref : Config := { Params.ref with ok := by decide }

/-- TINYCFG, the second instance (00_scope.md R12). -/
def Config.tiny : Config := { Params.tiny with ok := by decide }

/-- FREE VALUE (log 3): the byte that engine memory holds at an address which nothing has written since the
ENGINE's reset number `epoch`. 20_memory.md R82: a model draws it freely and never assumes zero; R62: a read
is idempotent, so the byte is one value per reset and address. It has no body: nothing can be proved of it. -/
opaque Config.unwrittenByte (epoch addr : Nat) : Byte

end Sys2Proof
end

