-- ==== Sys2Proof/Syntax.lean ====
section
/-! DEFINITION. The instructions of the block: one constructor per row of spec/opcode_table.json.
Host operations (format CW, spec/30_encoding.md R92) carry the operand bits they use (R93, R94);
wire commands (format WIRE, R101) carry the data bytes that follow the command byte (R105). -/

namespace Sys2Proof

inductive Instr where
  /-- FB_INIT (43_framebuffer.md R202). -/
  | fbInit
  /-- FB_FILL color (43_framebuffer.md R203). -/
  | fbFill (color : Half)
  /-- FB_SETPIXEL x, y, color (43_framebuffer.md R204). -/
  | fbSetpixel (x y : Word) (color : Half)
  /-- FB_DRAWLINE x, y, len, color (43_framebuffer.md R205). -/
  | fbDrawline (x y len : Word) (color : Half)
  /-- FB_SWAP (43_framebuffer.md R206). -/
  | fbSwap
  /-- FB_PRESENT (43_framebuffer.md R207). -/
  | fbPresent
  /-- PD_INIT handle (42_panel_driver.md R172). -/
  | pdInit (handle : Word)
  /-- PD_SETROT r (42_panel_driver.md R174). -/
  | pdSetrot (r : BitVec 2)
  /-- PD_SETWIN x0, y0, x1, y1 (42_panel_driver.md R176). -/
  | pdSetwin (x0 y0 x1 y1 : Half)
  /-- PD_WRDATA addr, len (42_panel_driver.md R177). -/
  | pdWrdata (addr len : Word)
  /-- PD_FILLRECT x, y, w, h, color (42_panel_driver.md R178). -/
  | pdFillrect (x y w h : Word) (color : Half)
  /-- PD_DRAWPIXEL x, y, color (42_panel_driver.md R179). -/
  | pdDrawpixel (x y : Word) (color : Half)
  /-- PD_SENDDMA addr (42_panel_driver.md R180). -/
  | pdSenddma (addr : Word)
  /-- PD_DMADONE (42_panel_driver.md R181). -/
  | pdDmadone
  /-- PD_GETW (42_panel_driver.md R182). -/
  | pdGetw
  /-- PD_GETH (42_panel_driver.md R183). -/
  | pdGeth
  /-- PD_WRPIXELS addr, len: the alias of PD_WRDATA (30_encoding.md R111). Its command word is PD_WRDATA's, so
  the decoder answers `pdWrdata` for it (log 16). -/
  | pdWrpixels (addr len : Word)
  /-- RESERVED: every opcode value outside the opcode map (30_encoding.md R98). -/
  | reserved (op : Byte)
  /-- column-range and the data bytes after it (41_receiver.md R147). -/
  | columnRange (data : List Byte)
  /-- row-range and the data bytes after it (41_receiver.md R148). -/
  | rowRange (data : List Byte)
  /-- begin memory write and the pixel bytes after it (41_receiver.md R151). -/
  | beginMemoryWrite (data : List Byte)
  /-- orientation and the data bytes after it (41_receiver.md R149). -/
  | orientation (data : List Byte)
  /-- display-on and the data bytes after it (41_receiver.md R150). -/
  | displayOn (data : List Byte)
  /-- a vendor command byte and the data bytes after it (41_receiver.md R152). -/
  | vendor (cmd : Byte) (data : List Byte)
deriving DecidableEq, Repr

/-- An encoded instruction: a command word of the host side (30_encoding.md R90), or the bytes of a wire
command, command byte first (30_encoding.md R105). -/
inductive Code where
  | cw (w : CommandWord)
  | wire (bytes : List Byte)
deriving DecidableEq, Repr

/-- The instruction an alias stands for (30_encoding.md R111); every other instruction stands for itself. -/
def Instr.canonical : Instr → Instr
  | .pdWrpixels addr len => .pdWrdata addr len
  | i => i

end Sys2Proof
end

