-- ==== Sys2Proof/WellFormed.lean ====
section
/-! DEFINITION. Which instructions a parameter set has. Under PROFILE_KIND = minimal eight host operations are
reserved encodings (spec/00_scope.md R18, spec/30_encoding.md R98); a RESERVED instruction carries an opcode
outside the opcode map (R92, R98); a vendor command byte is none of the five named ones (spec/41_receiver.md R152). -/

namespace Sys2Proof

/-- The opcodes of the full profile: 0x10 to 0x15 and 0x20 to 0x29 (30_encoding.md R92). -/
def opcodeInMap (op : Byte) : Bool :=
  decide ((0x10 ≤ op ∧ op ≤ 0x15) ∨ (0x20 ≤ op ∧ op ≤ 0x29))

/-- The eight opcodes that the minimal profile reserves (30_encoding.md R98). -/
def opcodeFullOnly (op : Byte) : Bool :=
  decide ((0x10 ≤ op ∧ op ≤ 0x15) ∨ op = 0x23 ∨ op = 0x26)

/-- The opcode names an operation in this profile (30_encoding.md R92, R98). -/
def opcodeAssigned (k : ProfileKind) (op : Byte) : Bool :=
  opcodeInMap op && (decide (k = .full) || !opcodeFullOnly op)

/-- The instruction exists under the parameter set `p`. -/
def WellFormed (p : Params) : Instr → Bool
  | .fbInit => decide (p.profile = .full)
  | .fbFill _ => decide (p.profile = .full)
  | .fbSetpixel _ _ _ => decide (p.profile = .full)
  | .fbDrawline _ _ _ _ => decide (p.profile = .full)
  | .fbSwap => decide (p.profile = .full)
  | .fbPresent => decide (p.profile = .full)
  | .pdInit _ => true
  | .pdSetrot _ => true
  | .pdSetwin _ _ _ _ => true
  | .pdWrdata _ _ => decide (p.profile = .full)
  | .pdFillrect _ _ _ _ _ => true
  | .pdDrawpixel _ _ _ => true
  | .pdSenddma _ => decide (p.profile = .full)
  | .pdDmadone => true
  | .pdGetw => true
  | .pdGeth => true
  | .pdWrpixels _ _ => decide (p.profile = .full)
  | .reserved op => !opcodeAssigned p.profile op
  | .columnRange _ => true
  | .rowRange _ => true
  | .beginMemoryWrite _ => true
  | .orientation _ => true
  | .displayOn _ => true
  | .vendor cmd _ => !decide (cmd ∈ p.namedCommands)

end Sys2Proof
end

