-- ==== Sys2Proof/Decode.lean ====
section
/-! DEFINITION. The encodings of spec/30_encoding.md: the decoder and the encoder of command words (R90 to R98) and
of wire commands (R100 to R105), the assembler form (R110, R111), and the init table as a ROM (R108). -/

namespace Sys2Proof

/-! ### The command word (R90) -/

/-- The field `op`, bits 167:160 (R90). -/
def cwOp (w : CommandWord) : Byte := w.extractLsb' 160 8

/-- Operand 0, bits 159:128 (R90). -/
def cwA0 (w : CommandWord) : Word := w.extractLsb' 128 32

/-- Operand 1, bits 127:96 (R90). -/
def cwA1 (w : CommandWord) : Word := w.extractLsb' 96 32

/-- Operand 2, bits 95:64 (R90). -/
def cwA2 (w : CommandWord) : Word := w.extractLsb' 64 32

/-- Operand 3, bits 63:32 (R90). -/
def cwA3 (w : CommandWord) : Word := w.extractLsb' 32 32

/-- Operand 4, bits 31:0 (R90). -/
def cwA4 (w : CommandWord) : Word := w.extractLsb' 0 32

/-- A command word from its opcode and its five operands, `A0` first (R90). -/
def packCw (op : Byte) (a0 a1 a2 a3 a4 : Word) : CommandWord := op ++ a0 ++ a1 ++ a2 ++ a3 ++ a4

/-- The 16 bits that a colour or a PD_SETWIN coordinate uses, 15:0 of its operand (R94). -/
def operandHalf (a : Word) : Half := a.extractLsb' 0 16

/-- The two bits that a rotation uses, 1:0 of its operand (R94). -/
def operandRot (a : Word) : BitVec 2 := a.extractLsb' 0 2

/-- The operation an assigned opcode names, with the operands it uses (R92, R93, R94). -/
def decodeOperation (op : Byte) (a0 a1 a2 a3 a4 : Word) : Instr :=
  if op = 0x10 then .fbInit
  else if op = 0x11 then .fbFill (operandHalf a0)
  else if op = 0x12 then .fbSetpixel a0 a1 (operandHalf a2)
  else if op = 0x13 then .fbDrawline a0 a1 a2 (operandHalf a3)
  else if op = 0x14 then .fbSwap
  else if op = 0x15 then .fbPresent
  else if op = 0x20 then .pdInit a0
  else if op = 0x21 then .pdSetrot (operandRot a0)
  else if op = 0x22 then .pdSetwin (operandHalf a0) (operandHalf a1) (operandHalf a2) (operandHalf a3)
  else if op = 0x23 then .pdWrdata a0 a1
  else if op = 0x24 then .pdFillrect a0 a1 a2 a3 (operandHalf a4)
  else if op = 0x25 then .pdDrawpixel a0 a1 (operandHalf a2)
  else if op = 0x26 then .pdSenddma a0
  else if op = 0x27 then .pdDmadone
  else if op = 0x28 then .pdGetw
  else if op = 0x29 then .pdGeth
  else .reserved op

/-- The command decoder: it selects by `op` alone (R92); an opcode that the profile does not assign is
RESERVED (R98). It is total: no command word is without a meaning. -/
def decodeCw (k : ProfileKind) (w : CommandWord) : Instr :=
  if opcodeAssigned k (cwOp w) then
    decodeOperation (cwOp w) (cwA0 w) (cwA1 w) (cwA2 w) (cwA3 w) (cwA4 w)
  else .reserved (cwOp w)

/-! ### Wire commands (R101, R105) -/

/-- Why bytes are no instruction. -/
inductive DecodeError where
  /-- A wire command of no bytes: a command begins with its command byte (R105). -/
  | noCommandByte
deriving DecidableEq, Repr

/-- The wire command a command byte names, in the order of 41_receiver.md R146, with the data bytes that
follow it (R101, R105). -/
def wireCommand (p : Params) (b : Byte) (data : List Byte) : Instr :=
  if b = p.opMemwrite then .beginMemoryWrite data
  else if b = p.opDispon then .displayOn data
  else if b = p.opColrange then .columnRange data
  else if b = p.opRowrange then .rowRange data
  else if b = p.opOrient then .orientation data
  else .vendor b data

/-- The wire decoder: the first byte is the command byte, the rest are its data bytes (R105). -/
def decodeWire (p : Params) : List Byte → Except DecodeError Instr
  | [] => .error .noCommandByte
  | b :: data => .ok (wireCommand p b data)

/-- The decoder: total on any code, rejecting by name. -/
def decode (p : Params) : Code → Except DecodeError Instr
  | .cw w => .ok (decodeCw p.profile w)
  | .wire bytes => decodeWire p bytes

/-! ### The encoder -/

/-- A 16-bit field as an operand, bits 31:16 zero (R94, R110). -/
def halfOperand (h : Half) : Word := h.setWidth 32

/-- A rotation as an operand, bits 31:2 zero (R94, R110). -/
def rotOperand (r : BitVec 2) : Word := r.setWidth 32

/-- The encoder (R92, R93, R101): an operand that an operation does not use is 0 (R110). -/
def encode (p : Params) : Instr → Code
  | .fbInit => .cw (packCw 0x10 0 0 0 0 0)
  | .fbFill c => .cw (packCw 0x11 (halfOperand c) 0 0 0 0)
  | .fbSetpixel x y c => .cw (packCw 0x12 x y (halfOperand c) 0 0)
  | .fbDrawline x y len c => .cw (packCw 0x13 x y len (halfOperand c) 0)
  | .fbSwap => .cw (packCw 0x14 0 0 0 0 0)
  | .fbPresent => .cw (packCw 0x15 0 0 0 0 0)
  | .pdInit h => .cw (packCw 0x20 h 0 0 0 0)
  | .pdSetrot r => .cw (packCw 0x21 (rotOperand r) 0 0 0 0)
  | .pdSetwin x0 y0 x1 y1 =>
      .cw (packCw 0x22 (halfOperand x0) (halfOperand y0) (halfOperand x1) (halfOperand y1) 0)
  | .pdWrdata addr len => .cw (packCw 0x23 addr len 0 0 0)
  | .pdFillrect x y w h c => .cw (packCw 0x24 x y w h (halfOperand c))
  | .pdDrawpixel x y c => .cw (packCw 0x25 x y (halfOperand c) 0 0)
  | .pdSenddma addr => .cw (packCw 0x26 addr 0 0 0 0)
  | .pdDmadone => .cw (packCw 0x27 0 0 0 0 0)
  | .pdGetw => .cw (packCw 0x28 0 0 0 0 0)
  | .pdGeth => .cw (packCw 0x29 0 0 0 0 0)
  | .pdWrpixels addr len => .cw (packCw 0x23 addr len 0 0 0)
  | .reserved op => .cw (packCw op 0 0 0 0 0)
  | .columnRange data => .wire (p.opColrange :: data)
  | .rowRange data => .wire (p.opRowrange :: data)
  | .beginMemoryWrite data => .wire (p.opMemwrite :: data)
  | .orientation data => .wire (p.opOrient :: data)
  | .displayOn data => .wire (p.opDispon :: data)
  | .vendor cmd data => .wire (cmd :: data)

/-! ### The assembler form (R110, R111) -/

/-- The mnemonics of a line (R92), the alias among them (R111). -/
inductive Mnemonic where
  | FB_INIT | FB_FILL | FB_SETPIXEL | FB_DRAWLINE | FB_SWAP | FB_PRESENT
  | PD_INIT | PD_SETROT | PD_SETWIN | PD_WRDATA | PD_FILLRECT | PD_DRAWPIXEL
  | PD_SENDDMA | PD_DMADONE | PD_GETW | PD_GETH | PD_WRPIXELS
deriving DecidableEq, Repr

/-- Opcode and number of operands of a mnemonic (R92, R93, R111). -/
def mnemonicRow : Mnemonic → Byte × Nat
  | .FB_INIT => (0x10, 0)
  | .FB_FILL => (0x11, 1)
  | .FB_SETPIXEL => (0x12, 3)
  | .FB_DRAWLINE => (0x13, 4)
  | .FB_SWAP => (0x14, 0)
  | .FB_PRESENT => (0x15, 0)
  | .PD_INIT => (0x20, 1)
  | .PD_SETROT => (0x21, 1)
  | .PD_SETWIN => (0x22, 4)
  | .PD_WRDATA => (0x23, 2)
  | .PD_FILLRECT => (0x24, 5)
  | .PD_DRAWPIXEL => (0x25, 3)
  | .PD_SENDDMA => (0x26, 1)
  | .PD_DMADONE => (0x27, 0)
  | .PD_GETW => (0x28, 0)
  | .PD_GETH => (0x29, 0)
  | .PD_WRPIXELS => (0x23, 2)

/-- The command word of a line: the mnemonic's operands in their order, the operands it does not list 0 (R110).
A line with another number of operands is no line of the form. -/
def assemble (m : Mnemonic) (operands : List Word) : Option CommandWord :=
  if operands.length = (mnemonicRow m).2 then
    some (packCw (mnemonicRow m).1 (operands.getD 0 0) (operands.getD 1 0) (operands.getD 2 0)
      (operands.getD 3 0) (operands.getD 4 0))
  else none

/-! ### The init table as a ROM (R108) -/

/-- Byte 1 of an entry: bit 7 the delay flag, bits 6:0 the number of parameter bytes (R108). -/
def romFlags (e : InitEntry) : Byte :=
  BitVec.ofBool e.delay.isSome ++ BitVec.ofNat 7 e.params.length

/-- A present post-delay, most significant byte first (R108). -/
def romDelay : Option (BitVec 16) → List Byte
  | none => []
  | some d => [d.extractLsb' 8 8, d.extractLsb' 0 8]

/-- One entry of the ROM (R108). -/
def romEntry (e : InitEntry) : List Byte := e.cmd :: romFlags e :: (e.params ++ romDelay e.delay)

/-- The ROM of an init table: the entry count, then the entries (R108). -/
def romEncode (t : List InitEntry) : List Byte := BitVec.ofNat 8 t.length :: t.flatMap romEntry

/-- The entry that a ROM begins with, and the rest of the ROM (R108). -/
def romReadEntry : List Byte → Option (InitEntry × List Byte)
  | cmd :: flags :: rest =>
    let n := (flags.extractLsb' 0 7).toNat
    if rest.length < n then none
    else if flags.getLsbD 7 then
      match rest.drop n with
      | hi :: lo :: rest' => some (⟨cmd, rest.take n, some (hi ++ lo)⟩, rest')
      | _ => none
    else some (⟨cmd, rest.take n, none⟩, rest.drop n)
  | _ => none

/-- `n` entries read from a ROM that holds nothing else (R108). -/
def romReadEntries : Nat → List Byte → Option (List InitEntry)
  | 0, [] => some []
  | 0, _ => none
  | n + 1, bytes =>
    match romReadEntry bytes with
    | none => none
    | some (e, rest) => (romReadEntries n rest).map (e :: ·)

/-- The init table that a ROM holds (R108). -/
def romDecode : List Byte → Option (List InitEntry)
  | [] => none
  | n :: bytes => romReadEntries n.toNat bytes

/-! ### A table word -/

/-- The bytes of a number, the least significant first: `n` of them. -/
def bytesOf : Nat → Nat → List Byte
  | 0, _ => []
  | n + 1, w => BitVec.ofNat 8 w :: bytesOf n (w / 256)

/-- How many data bytes the named wire commands have: four for the range commands (R102), one for orientation
(R103), none that is fixed for the others (R101, R104). -/
def wireDataLength (p : Params) (b : Byte) : Nat :=
  if b = p.opColrange ∨ b = p.opRowrange then 4 else if b = p.opOrient then 1 else 0

/-- The code whose bits are `w`, numbered as spec/opcode_table.json numbers them: a row of format WIRE is one
command byte (8 bits) and may be followed by data bytes, those the row gives no bits being 0; a row of format CW
is one number of 168 bits (log 21). -/
def tableCode (p : Params) (nbits w : Nat) : Code :=
  if 8 ≤ nbits ∧ nbits < 168 then
    .wire (bytesOf (max (nbits / 8) (1 + wireDataLength p (BitVec.ofNat 8 w))) w)
  else .cw (BitVec.ofNat 168 w)

/-- The instruction that the decoder reads from a table word. The command bytes of the table's WIRE rows are
REFCFG's (30_encoding.md, introduction), so the parameters are REFCFG's. -/
def decodeTableWord (nbits w : Nat) : Option Instr :=
  match decode Params.ref (tableCode Params.ref nbits w) with
  | .ok i => some i
  | .error _ => none

end Sys2Proof
end

