-- ==== Sys2Proof/Machine/State.lean ====
section
/-! DEFINITION. The state of the block as plain data (spec/10_state.md), why a step can stop, and the state after
reset (R50, R51). The parameters are carried beside the state as `cfg`; no step writes them (log 1). -/

namespace Sys2Proof.Machine

open Sys2Proof

/-- The Panel Driver's state (10_state.md R24). Resetting and Initializing occur only inside PD_INIT, which is one
step here (42_panel_driver.md R172; log 5). -/
inductive PdState where
  | uninitialized
  | resetting
  | initializing
  | ready
  | busy
deriving DecidableEq, Repr

/-- The Transfer State (10_state.md R25). -/
inductive Xfer where
  | idle
  | inFlight
deriving DecidableEq, Repr

/-- A wire event (00_scope.md R15); a level is `true` for high (1) and `false` for low (0). -/
inductive Event where
  | cs (l : Bool)
  | dc (l : Bool)
  | rst (l : Bool)
  | tx (b : Byte)
  | wait (ms : Nat)
deriving DecidableEq, Repr

/-- What the outside does next (INVENTORY.md, Host interface; log 7). -/
inductive Input where
  /-- The HOST presents a command word (10_state.md R52). -/
  | cmd (w : CommandWord)
  /-- Another driver of the link sends one wire command in its brackets (30_encoding.md R100, R105; log 11). -/
  | wire (bytes : List Byte)
  /-- Another driver of the link makes one event (41_receiver.md R142; log 12). -/
  | event (e : Event)
  /-- DMA is given its turn (40_bus_transport.md R125; log 6). -/
  | dmaStep
  /-- The ENGINE's own reset when no operation is in progress (70_reset_and_hazards.md R240). -/
  | por
  /-- The ENGINE's own reset while the accepted operation is in progress (70_reset_and_hazards.md R240): it is
  abandoned after its first `k` wire events and, inside a wait, after `ms` milliseconds of it (log 9). -/
  | porDuring (k ms : Nat)
deriving DecidableEq, Repr

/-- Engine memory as its written bytes, addresses strictly rising; an unlisted byte has no value of its own: it is
unspecified (10_state.md R32, 20_memory.md R82). -/
abbrev Memory := List Host.Cell

/-- The panel memory: PANEL_H rows of PANEL_W cells, each a pixel or unwritten (10_state.md R45). -/
abbrev Gram := List (List (Option Half))

/-- The keys of a cell list rise strictly: the canonical form of engine memory. -/
def keysRise {α : Type} : List (Nat × α) → Bool
  | [] => true
  | [_] => true
  | c :: d :: rest => decide (c.1 < d.1) && keysRise (d :: rest)

/-- The canonical form of engine memory. No entry equals what an unlisted address reads as, because an unlisted
address has no value. -/
def Memory.wf (m : Memory) : Bool := keysRise m

/-- The panel memory has PANEL_H rows of PANEL_W cells (10_state.md R45). -/
def Gram.wf (p : Params) (g : Gram) : Bool :=
  decide (g.length = p.panelH) && g.all (fun row => decide (row.length = p.panelW))

/-- The panel memory with every cell unwritten (10_state.md R45). -/
def Gram.unwritten (p : Params) : Gram := List.replicate p.panelH (List.replicate p.panelW none)

/-- The DMA engine's record (10_state.md R33). -/
structure Dma where
  active : Bool
  done   : Bool
  base   : Word
  len    : Word
  ptr    : Word
  rem    : Word
deriving DecidableEq, Repr

/-- RX's sticky violation flags (10_state.md R47, 41_receiver.md R160). -/
structure Viol where
  /-- V_RSTPULSE -/
  rstPulse : Bool
  /-- V_SETTLE -/
  settle : Bool
  /-- V_NOCMD -/
  noCmd : Bool
  /-- V_HALF -/
  half : Bool
  /-- V_WINDOW -/
  window : Bool
deriving DecidableEq, Repr

/-- The receiver RX (10_state.md R40 to R48). -/
structure Rx where
  cs : Bool
  dc : Bool
  rst : Bool
  cmd : Option Byte
  pidx : Nat
  xs : Half
  xe : Half
  ys : Half
  ye : Half
  memwr : Bool
  col : Half
  row : Half
  half : Option Byte
  orient : Byte
  dispOn : Bool
  gram : Gram
  holdMs : Nat
  settleMs : Nat
  viol : Viol
  vendorLog : List (List Byte)
deriving DecidableEq, Repr

/-- The state of the block (10_state.md R20), its wire trace (R36), the script of the outside (log 7) and the
parameters (log 1). -/
structure State where
  /-- The parameter set; no step writes it. -/
  cfg : Config
  /-- `op`, the latched opcode (R21). -/
  op : Byte
  /-- `A0` (R22). -/
  a0 : Word
  /-- `A1` (R22). -/
  a1 : Word
  /-- `A2` (R22). -/
  a2 : Word
  /-- `A3` (R22). -/
  a3 : Word
  /-- `A4` (R22). -/
  a4 : Word
  /-- `rsp`, the last response (R29). -/
  rsp : Word
  /-- `busy`, an accepted operation has not yet responded (R29). -/
  busy : Bool
  /-- `rsp_valid`, a response is being delivered (R52; log 10). -/
  rspValid : Bool
  /-- `pd_state` (R24). -/
  pdState : PdState
  /-- `seq_idx` (R23). -/
  seqIdx : BitVec 8
  /-- `rot` (R27). -/
  rot : BitVec 2
  /-- `eff_w` (R27). -/
  effW : Half
  /-- `eff_h` (R27). -/
  effH : Half
  /-- `orient` (R28). -/
  orient : Byte
  /-- `xfer` (R25). -/
  xfer : Xfer
  /-- `front`, the number of the front buffer (R26). -/
  front : BitVec 1
  /-- `cs`, the chip-select level (R30). -/
  cs : Bool
  /-- `dc`, the command/data level (R30). -/
  dc : Bool
  /-- `rst`, the panel reset level (R30). -/
  rst : Bool
  /-- `mem`, engine memory (R32). -/
  mem : Memory
  /-- The number of ENGINE resets so far, the index of the free value of unwritten bytes (log 4). -/
  memEpoch : Nat
  /-- `dma` (R33). -/
  dma : Dma
  /-- `diag_oob` (R34). -/
  diagOob : Word
  /-- RX's state (R40 to R48). -/
  rx : Rx
  /-- The wire trace, oldest event first (R36, 00_scope.md R15). -/
  trace : List Event
  /-- What the outside does next. -/
  inputs : List Input
deriving DecidableEq, Repr

/-- Why the machine stops with a fault: never. The block raises no exception, a model has no trap constructor, and every
operation completes in every state (60_exceptions.md R220), so this type has no constructor: safe. -/
inductive Fault where
deriving DecidableEq, Repr

/-- Why an instruction has no meaning. -/
inductive Refusal where
  /-- The instruction has no meaning yet. Raised by exec's refused arms, of which there is none: safe. -/
  | notModelled (mnemonic : String)
  /-- Bytes that are no instruction. Raised by `step` for a wire command of no bytes (30_encoding.md R105;
  log 24): safe. -/
  | undecodable (e : DecodeError)
deriving DecidableEq, Repr

/-- No transfer has been started (10_state.md R50). -/
def Dma.reset : Dma := { active := false, done := false, base := 0, len := 0, ptr := 0, rem := 0 }

/-- No violation flag is set (10_state.md R47). -/
def Viol.clear : Viol :=
  { rstPulse := false, settle := false, noCmd := false, half := false, window := false }

/-- RX at power-on (10_state.md R51). -/
def Rx.powerOn (p : Params) : Rx :=
  { cs := true, dc := true, rst := true, cmd := none, pidx := 0,
    xs := 0, xe := BitVec.ofNat 16 (p.panelW - 1), ys := 0, ye := BitVec.ofNat 16 (p.panelH - 1),
    memwr := false, col := 0, row := 0, half := none, orient := 0x00, dispOn := false,
    gram := Gram.unwritten p, holdMs := 0, settleMs := 0, viol := Viol.clear, vendorLog := [] }

/-- The machine right after reset with the parameters `c` (10_state.md R50, R51; 70_reset_and_hazards.md R240,
R242): both ends of the link in their reset states, nothing for the outside to do yet. -/
def State.resetOf (c : Config) : State :=
  { cfg := c, op := 0x00, a0 := 0, a1 := 0, a2 := 0, a3 := 0, a4 := 0, rsp := 0, busy := false,
    rspValid := false, pdState := .uninitialized, seqIdx := 0, rot := 0,
    effW := BitVec.ofNat 16 c.panelW, effH := BitVec.ofNat 16 c.panelH, orient := 0x00,
    xfer := .idle, front := 0, cs := true, dc := true, rst := true, mem := [], memEpoch := 0,
    dma := Dma.reset, diagOob := 0, rx := Rx.powerOn c.toParams, trace := [], inputs := [] }

/-- The machine right after reset, in the spec's reference instance REFCFG (00_scope.md R12; log 1). -/
def State.reset : State := State.resetOf Config.ref

end Sys2Proof.Machine
end

