-- ==== Sys2Proof/Machine/Operands.lean ====
section
/-! DEFINITION. Operand forms, byte order, geometry and the rotation mapping: the pure functions that the meanings
compute with. Arithmetic is on naturals (spec/00_scope.md R19). -/

namespace Sys2Proof.Machine

open Sys2Proof

/-! ### Byte order (00_scope.md R13, 20_memory.md R65) -/

/-- `hi8(v) = v[15:8]` (00_scope.md R13). -/
def hi8 (v : Half) : Byte := v.extractLsb' 8 8

/-- `lo8(v) = v[7:0]` (00_scope.md R13). -/
def lo8 (v : Half) : Byte := v.extractLsb' 0 8

/-- A 16-bit value in wire order, most significant byte first (30_encoding.md R96, 20_memory.md R65). -/
def wireHalf (v : Half) : List Byte := [hi8 v, lo8 v]

/-- The wire bytes of `n` pixels of one colour: `[hi, lo] * n` (00_scope.md R13). -/
def wirePixels (c : Half) (n : Nat) : List Byte := (List.replicate n (wireHalf c)).flatten

/-- The parameter bytes of a range command: first and last coordinate, inclusive (30_encoding.md R102). -/
def rangeBytes (s e : Half) : List Byte := wireHalf s ++ wireHalf e

/-- `v[15:8] <- b` (41_receiver.md R147). -/
def setHi8 (v : Half) (b : Byte) : Half := b ++ lo8 v

/-- `v[7:0] <- b` (41_receiver.md R147). -/
def setLo8 (v : Half) (b : Byte) : Half := hi8 v ++ b

/-- A pixel from its two bytes, the first being the more significant (41_receiver.md R154). -/
def pixelOf (hi lo : Byte) : Half := hi ++ lo

/-! ### Operands -/

/-- HandleValid (00_scope.md R10). -/
def handleValid (p : Params) (h : Word) : Bool :=
  p.handleRanges.any (fun r => decide (r.1 ≤ h) && decide (h ≤ r.2))

/-- A clamped extent: `min(len, size - start)`, taken where `start < size` (00_scope.md R19 (b), (c)). -/
def clampLen (len size start : Nat) : Nat := min len (size - start)

/-- The sizes of the batches of PD_FILLRECT's loop, at most `B` pixels each, `n` pixels in all
(42_panel_driver.md R178). The first argument bounds the loop: with `B >= 1` it runs at most `n` times. -/
def batches (B : Nat) : Nat → Nat → List Nat
  | 0, _ => []
  | fuel + 1, n => if n = 0 then [] else min B n :: batches B fuel (n - min B n)

/-! ### ENGINE geometry and orientation -/

/-- `ORIENT_TABLE[r]` (00_scope.md R8). -/
def orientEntry (t : OrientTable) (r : BitVec 2) : Byte :=
  if r = 0 then t.r0 else if r = 1 then t.r1 else if r = 2 then t.r2 else t.r3

/-- The orientation byte of rotation `r` (10_state.md R28). -/
def orientByte (p : Params) (r : BitVec 2) : Byte := orientEntry p.orientTable r ||| p.colorOrderBit

/-- The rotations in which width and height are exchanged, 1 and 3 (10_state.md R27). -/
def rotSwaps (r : BitVec 2) : Bool := decide (r = 1 ∨ r = 3)

/-- The effective width of rotation `r` (10_state.md R27). -/
def rotW (p : Params) (r : BitVec 2) : Half :=
  if rotSwaps r then BitVec.ofNat 16 p.panelH else BitVec.ofNat 16 p.panelW

/-- The effective height of rotation `r` (10_state.md R27). -/
def rotH (p : Params) (r : BitVec 2) : Half :=
  if rotSwaps r then BitVec.ofNat 16 p.panelW else BitVec.ofNat 16 p.panelH

/-! ### Engine memory layout (20_memory.md R61) -/

/-- `base(b) = BUF0_BASE + b * BUF_BYTES` (20_memory.md R61). -/
def bufBase (p : Params) (b : BitVec 1) : Nat := buf0Base + b.toNat * p.bufBytes

/-- The back buffer's number, `1 - front` (10_state.md R26). -/
def State.back (s : State) : BitVec 1 := 1 - s.front

/-- `n <= MEM_BYTES` and `addr <= MEM_BYTES - n`: the byte range lies in engine memory (20_memory.md R62). -/
def rangeInMem (p : Params) (addr n : Nat) : Bool :=
  decide (n ≤ p.memBytes ∧ addr ≤ p.memBytes - n)

/-- The bytes of one full screen, `eff_w * eff_h * 2` (42_panel_driver.md R180). -/
def State.screenBytes (s : State) : Nat := s.effW.toNat * s.effH.toNat * 2

/-! ### RX geometry and the rotation mapping -/

/-- A flag of an orientation byte is set. -/
def flagSet (o m : Byte) : Bool := decide (o &&& m ≠ 0)

/-- `rx_w` (41_receiver.md R156). -/
def rxW (p : Params) (o : Byte) : Nat := if flagSet o p.maskEx then p.panelH else p.panelW

/-- `rx_h` (41_receiver.md R156). -/
def rxH (p : Params) (o : Byte) : Nat := if flagSet o p.maskEx then p.panelW else p.panelH

/-- `Map(o, x, y)`: the physical column and row of a logical position, or none where it is outside the panel
(41_receiver.md R157): exchange first, then the column order, then the row order. -/
def panelMap (p : Params) (o : Byte) (x y : Nat) : Option (Nat × Nat) :=
  let c := if flagSet o p.maskEx then y else x
  let r := if flagSet o p.maskEx then x else y
  if c < p.panelW ∧ r < p.panelH then
    some (if flagSet o p.maskCo then p.panelW - 1 - c else c,
          if flagSet o p.maskRo then p.panelH - 1 - r else r)
  else none

end Sys2Proof.Machine
end

