-- ==== Sys2Proof/Machine/Flags.lean ====
section
/-! DEFINITION. The one-bit conditions and counters: the diagnostic counter, the ownership interlock, the validity
of RX's window and the violation flags. The block has no arithmetic flags (spec/10_state.md R38). -/

namespace Sys2Proof.Machine

open Sys2Proof

/-- `sat_inc`: `v + 1`, or `v` when `v = 0xFFFFFFFF` (10_state.md R34). -/
def satInc (v : Word) : Word := if v = 0xFFFFFFFF then v else v + 1

/-- `diag_oob <- sat_inc(diag_oob)` (10_state.md R34, 60_exceptions.md R231). -/
def State.countOob (s : State) : State := { s with diagOob := satInc s.diagOob }

/-- `Owned()`: the back buffer overlaps the range of the transfer in flight (43_framebuffer.md R201). -/
def State.owned (s : State) : Bool :=
  decide (s.xfer = .inFlight
    ∧ bufBase s.cfg.toParams s.back < s.dma.base.toNat + s.dma.len.toNat
    ∧ s.dma.base.toNat < bufBase s.cfg.toParams s.back + s.cfg.bufBytes)

/-- `WindowValid()` (41_receiver.md R158). -/
def windowValid (p : Params) (r : Rx) : Bool :=
  decide (r.xs ≤ r.xe ∧ r.xe.toNat < rxW p r.orient ∧ r.ys ≤ r.ye ∧ r.ye.toNat < rxH p r.orient)

/-- Set V_RSTPULSE (41_receiver.md R160). -/
def Rx.setRstPulse (r : Rx) : Rx := { r with viol := { r.viol with rstPulse := true } }

/-- Set V_SETTLE (41_receiver.md R160). -/
def Rx.setSettle (r : Rx) : Rx := { r with viol := { r.viol with settle := true } }

/-- Set V_NOCMD (41_receiver.md R160). -/
def Rx.setNoCmd (r : Rx) : Rx := { r with viol := { r.viol with noCmd := true } }

/-- Set V_HALF (41_receiver.md R160). -/
def Rx.setHalf (r : Rx) : Rx := { r with viol := { r.viol with half := true } }

/-- Set V_WINDOW (41_receiver.md R160). -/
def Rx.setWindow (r : Rx) : Rx := { r with viol := { r.viol with window := true } }

end Sys2Proof.Machine
end

