-- ==== Sys2Proof/Machine/Ops.lean ====
section
/-! DEFINITION. The named operations over memories and registers, and the two ways an operation ends: `done` and
`refuse` (spec/00_scope.md R14). The block has no exception to take and none to return from
(spec/60_exceptions.md R220, R225, R226): `refuse` is the whole of its failure behaviour (R221). -/

namespace Sys2Proof.Machine

open Sys2Proof

/-! ### Cell lists -/

/-- The value listed at a key. -/
def cellGet {α : Type} : List (Nat × α) → Nat → Option α
  | [], _ => none
  | c :: rest, k => if c.1 = k then some c.2 else cellGet rest k

/-- The cells that hold the values `vs` at the keys `k`, `k + 1`, ... -/
def cellsAt {α : Type} : Nat → List α → List (Nat × α)
  | _, [] => []
  | k, v :: vs => (k, v) :: cellsAt (k + 1) vs

/-- The cell list with the values `vs` at the keys `k` .. `k + vs.length - 1` and every other key as before. -/
def cellsWrite {α : Type} (m : List (Nat × α)) (k : Nat) (vs : List α) : List (Nat × α) :=
  m.filter (fun c => decide (c.1 < k)) ++ cellsAt k vs
    ++ m.filter (fun c => decide (k + vs.length ≤ c.1))

/-! ### Engine memory -/

/-- One byte of engine memory: the byte last written there, or the free value where nothing has been written
since the ENGINE's reset (20_memory.md R62, R82; log 3), an address outside engine memory among them (log 14). -/
def State.byteAt (s : State) (addr : Nat) : Byte :=
  (cellGet s.mem addr).getD (Config.unwrittenByte s.memEpoch addr)

/-- The `n` bytes at `addr`, lowest address first (20_memory.md R62). -/
def State.bytesAt (s : State) : Nat → Nat → List Byte
  | _, 0 => []
  | addr, n + 1 => s.byteAt addr :: s.bytesAt (addr + 1) n

/-- `MemRead(addr, n)` (20_memory.md R62): none where the range leaves engine memory. -/
def State.memRead (s : State) (addr n : Nat) : Option (List Byte) :=
  if rangeInMem s.cfg.toParams addr n then some (s.bytesAt addr n) else none

/-- `MemWrite(addr, n, v)` with `n = len(v)` (20_memory.md R62). The part of `v` that would lie at MEM_BYTES or above has
no place in engine memory and is not written; no run makes such a write (DESIGN CHOICE, log 14). -/
def State.memWrite (s : State) (addr : Nat) (v : List Byte) : State :=
  { s with mem := cellsWrite s.mem addr (v.take (s.cfg.memBytes - addr)) }

/-- `n` times `PixStore(b, i + j, c)`, `j = 0 .. n - 1`, one after the other (20_memory.md R64): the pixels are
neighbours, so it is one write of their wire bytes. -/
def State.pixStores (s : State) (b : BitVec 1) (i n : Nat) (c : Half) : State :=
  s.memWrite (bufBase s.cfg.toParams b + 2 * i) (wirePixels c n)

/-! ### Panel memory -/

/-- `rx.gram[pr][pc]`, none where it is unwritten or outside the panel (20_memory.md R70). -/
def Rx.cell (r : Rx) (pc pr : Nat) : Option Half := ((r.gram[pr]?).bind (fun row => row[pc]?)).join

/-- `rx.gram[pr][pc] <- px` (20_memory.md R70). -/
def Rx.setCell (r : Rx) (pc pr : Nat) (px : Half) : Rx :=
  { r with gram := r.gram.modify pr (fun row => row.set pc (some px)) }

/-! ### The end of an operation -/

/-- `done(v)`: `rsp <- v`, end the operation (00_scope.md R14): the response is delivered and the port is free
again (10_state.md R29, R52). -/
def State.done (s : State) (v : Word) : State := { s with rsp := v, busy := false, rspValid := true }

/-- `refuse`: no state other than `rsp` is written, `rsp <- 0`, end the operation (00_scope.md R14,
60_exceptions.md R221). -/
def State.refuse (s : State) : State := s.done 0

end Sys2Proof.Machine
end

