-- ==== Sys2Proof/Machine/Receiver.lean ====
section
/-! DEFINITION. The receiver RX: the step it takes on each wire event (spec/41_receiver.md). -/

namespace Sys2Proof.Machine

open Sys2Proof

/-- The violation checks of begin-memory-write: V_WINDOW for an invalid window (R151). -/
def Rx.checkWindow (p : Params) (r : Rx) : Rx := if windowValid p r then r else r.setWindow

/-- The start of every command step: a pending half pixel is dropped with V_HALF, the command is latched, its
parameter counter is 0, memory-write mode ends (R146). -/
def Rx.latchCommand (r : Rx) (b : Byte) : Rx :=
  let r := if r.half.isSome then r.setHalf else r
  { r with half := none, cmd := some b, pidx := 0, memwr := false }

/-- Begin memory write: memory-write mode, the pointer at the window's first cell (R151). -/
def Rx.beginWrite (p : Params) (r : Rx) : Rx :=
  Rx.checkWindow p { r with memwr := true, col := r.xs, row := r.ys }

/-- The command step (R146), continued by R151, R150 or R152. -/
def Rx.commandByte (p : Params) (r : Rx) (b : Byte) : Rx :=
  let r := r.latchCommand b
  if b = p.opMemwrite then Rx.beginWrite p r
  else if b = p.opDispon then { r with dispOn := true }
  else if b = p.opColrange ∨ b = p.opRowrange ∨ b = p.opOrient then r
  else { r with vendorLog := r.vendorLog ++ [[b]] }

/-- Column-range parameter `(i, b)` (R147). -/
def Rx.colParam (r : Rx) (i : Nat) (b : Byte) : Rx :=
  if i = 0 then { r with xs := setHi8 r.xs b }
  else if i = 1 then { r with xs := setLo8 r.xs b }
  else if i = 2 then { r with xe := setHi8 r.xe b }
  else if i = 3 then { r with xe := setLo8 r.xe b }
  else r

/-- Row-range parameter `(i, b)` (R148). -/
def Rx.rowParam (r : Rx) (i : Nat) (b : Byte) : Rx :=
  if i = 0 then { r with ys := setHi8 r.ys b }
  else if i = 1 then { r with ys := setLo8 r.ys b }
  else if i = 2 then { r with ye := setHi8 r.ye b }
  else if i = 3 then { r with ye := setLo8 r.ye b }
  else r

/-- Orientation parameter `(i, b)` (R149). -/
def Rx.orientParam (r : Rx) (i : Nat) (b : Byte) : Rx := if i = 0 then { r with orient := b } else r

/-- A byte appended to the last record of the vendor log (R153). A log without a record, which no run reaches
with a vendor command latched, stays as it is (log 17). -/
def appendToLast : List (List Byte) → Byte → List (List Byte)
  | [], _ => []
  | [r], b => [r ++ [b]]
  | r :: s :: rest, b => r :: appendToLast (s :: rest) b

/-- The pointer's advance: row-major in the window, from the last cell back to the first (R155). -/
def Rx.advance (r : Rx) : Rx :=
  if r.col = r.xe then
    if r.row = r.ye then { r with col := r.xs, row := r.ys } else { r with col := r.xs, row := r.row + 1 }
  else { r with col := r.col + 1 }

/-- Pixel write and pointer advance (R155). -/
def Rx.pixel (p : Params) (r : Rx) (px : Half) : Rx :=
  match panelMap p r.orient r.col.toNat r.row.toNat with
  | some (pc, pr) => (r.setCell pc pr px).advance
  | none => r.setWindow.advance

/-- Pixel assembly in memory-write mode (R154). -/
def Rx.pixelByte (p : Params) (r : Rx) (b : Byte) : Rx :=
  match r.half with
  | none => { r with half := some b }
  | some h => Rx.pixel p { r with half := none } (pixelOf h b)

/-- A parameter byte of the latched command `c` (R153, R147 to R150). -/
def Rx.paramByte (p : Params) (r : Rx) (c b : Byte) : Rx :=
  let i := r.pidx
  let r := { r with pidx := i + 1 }
  if c = p.opColrange then r.colParam i b
  else if c = p.opRowrange then r.rowParam i b
  else if c = p.opOrient then r.orientParam i b
  else if c = p.opDispon then r
  else { r with vendorLog := appendToLast r.vendorLog b }

/-- The data step (R153). -/
def Rx.dataByte (p : Params) (r : Rx) (b : Byte) : Rx :=
  match r.cmd with
  | none => r.setNoCmd
  | some c => if r.memwr then Rx.pixelByte p r b else Rx.paramByte p r c b

/-- V_SETTLE for a byte taken before the settle floor (R144, R159). -/
def Rx.checkSettle (r : Rx) : Rx := if r.settleMs < rstSettleMin then r.setSettle else r

/-- A byte on the link: gated by chip-select (R142) and by reset (R143), then classified by the command/data line
(R144). -/
def Rx.byte (p : Params) (r : Rx) (b : Byte) : Rx :=
  if r.cs then r
  else if r.rst = false then r
  else if r.dc then Rx.dataByte p r.checkSettle b else Rx.commandByte p r.checkSettle b

/-- The reset line goes low: every element takes its "after RST(0)" value (R159, 10_state.md R51). -/
def Rx.panelReset (p : Params) (r : Rx) : Rx :=
  { Rx.powerOn p with
    cs := r.cs, dc := r.dc, rst := false, holdMs := 0, settleMs := r.settleMs, viol := r.viol,
    vendorLog := r.vendorLog }

/-- The reset line goes high: V_RSTPULSE after too short a pulse; the settle time starts (R159). -/
def Rx.resetRelease (r : Rx) : Rx :=
  let r := if r.holdMs < rstHoldMin then r.setRstPulse else r
  { r with rst := true, settleMs := 0 }

/-- `RST(l)` (R159): only a change of level does something. -/
def Rx.resetLine (p : Params) (r : Rx) (l : Bool) : Rx :=
  if l = r.rst then r else if l then r.resetRelease else Rx.panelReset p r

/-- `WAIT(ms)` (R159). -/
def Rx.wait (r : Rx) (ms : Nat) : Rx :=
  if r.rst then { r with settleMs := r.settleMs + ms } else { r with holdMs := r.holdMs + ms }

/-- RX's step on one wire event (R141). -/
def Rx.event (p : Params) (r : Rx) : Event → Rx
  | .cs l => { r with cs := l }
  | .dc l => { r with dc := l }
  | .rst l => Rx.resetLine p r l
  | .tx b => Rx.byte p r b
  | .wait ms => r.wait ms

/-- RX's steps on a list of events, in order, each wholly before the next (R141, 20_memory.md R76). -/
def Rx.events (p : Params) (r : Rx) (es : List Event) : Rx := es.foldl (Rx.event p) r

/-- What RX sees of the ENGINE's own reset: the three lines return to their reset levels (70_reset_and_hazards.md
R240). -/
def Rx.seeEngineReset (r : Rx) : Rx :=
  let r := { r with cs := true, dc := true }
  if r.rst then r else r.resetRelease

end Sys2Proof.Machine
end

