-- ==== Sys2Proof/Machine/Transport.lean ====
section
/-! DEFINITION. The Bus Transport BT and the DMA engine (spec/40_bus_transport.md), and the emission of wire events
(spec/00_scope.md R14, R15). -/

namespace Sys2Proof.Machine

open Sys2Proof

/-! ### Emission -/

/-- The chip-select level after an event (00_scope.md R14). -/
def csAfter (l : Bool) : Event → Bool
  | .cs l' => l'
  | .dc _ => l
  | .rst _ => l
  | .tx _ => l
  | .wait _ => l

/-- The command/data level after an event (00_scope.md R14). -/
def dcAfter (l : Bool) : Event → Bool
  | .cs _ => l
  | .dc l' => l'
  | .rst _ => l
  | .tx _ => l
  | .wait _ => l

/-- The panel reset level after an event (00_scope.md R14). -/
def rstAfter (l : Bool) : Event → Bool
  | .cs _ => l
  | .dc _ => l
  | .rst l' => l'
  | .tx _ => l
  | .wait _ => l

/-- `Emit` of a list of events, in order: the lines take the levels assigned, the trace grows, RX takes each event
(00_scope.md R14, R15; 20_memory.md R76). -/
def State.emit (s : State) (es : List Event) : State :=
  { s with
    cs := es.foldl csAfter s.cs, dc := es.foldl dcAfter s.dc, rst := es.foldl rstAfter s.rst,
    trace := s.trace ++ es, rx := Rx.events s.cfg.toParams s.rx es }

/-! ### The primitives -/

/-- The events of `BT_Cmd(b)`: one command bracket (R121). -/
def btCmd (b : Byte) : List Event := [.cs false, .dc false, .tx b, .cs true]

/-- The events of `BT_Data(bs)`: one data bracket (R122); an empty list gives the empty bracket. -/
def btData (bs : List Byte) : List Event := .cs false :: .dc true :: (bs.map Event.tx ++ [.cs true])

/-- `BT_DataDMA(addr, n)`: a data bracket is opened and handed to DMA (R123). -/
def State.btDataDma (s : State) (addr n : Word) : State :=
  { s.emit [.cs false, .dc true] with
    dma := { active := true, done := decide (n = 0), base := addr, len := n, ptr := addr, rem := n } }

/-- `BT_DmaDone()` (R124): the state after it and the boolean it returns. -/
def State.btDmaDone (s : State) : State × Bool :=
  if s.dma.active = false then (s, true)
  else if s.dma.done = false then (s, false)
  else ({ s.emit [.cs true] with dma := { s.dma with active := false } }, true)

/-! ### The DMA engine -/

/-- DMA has a step (R125). -/
def State.dmaEnabled (s : State) : Bool := s.dma.active && decide (s.dma.rem ≠ 0)

/-- The DMA step (R125): one byte goes out, read at this moment. -/
def State.dmaSend (s : State) : State :=
  { s.emit [.tx (s.byteAt s.dma.ptr.toNat)] with
    dma := { s.dma with ptr := s.dma.ptr + 1, rem := s.dma.rem - 1,
                        done := if s.dma.rem - 1 = 0 then true else s.dma.done } }

/-- DMA's turn (R125): its step if it has one, else nothing. -/
def State.dmaTurn (s : State) : State := if s.dmaEnabled then s.dmaSend else s

end Sys2Proof.Machine
end

