-- ==== Sys2Proof/Machine/PanelDriver.lean ====
section
/-! DEFINITION. The Panel Driver PD and the init sequencer: the two shared procedures and the meanings of the PD
operations (spec/42_panel_driver.md). -/

namespace Sys2Proof.Machine

open Sys2Proof

/-! ### Shared procedures -/

/-- The events of `SetWindow(x0, y0, x1, y1)`: five brackets, eleven bytes (R175). -/
def setWindow (p : Params) (x0 y0 x1 y1 : Half) : List Event :=
  btCmd p.opColrange ++ btData (rangeBytes x0 x1)
    ++ (btCmd p.opRowrange ++ btData (rangeBytes y0 y1)) ++ btCmd p.opMemwrite

/-- The events of a full-screen window, `SetWindow(0, 0, eff_w - 1, eff_h - 1)` (R180, 43_framebuffer.md R202, R207). -/
def State.screenWindow (s : State) : List Event :=
  setWindow s.cfg.toParams 0 0 (s.effW - 1) (s.effH - 1)

/-- The state that `ApplyRotation(r)` writes before it sends the command (R173). -/
def State.setRotation (s : State) (r : BitVec 2) : State :=
  { s with
    rot := r, orient := orientByte s.cfg.toParams r,
    effW := rotW s.cfg.toParams r, effH := rotH s.cfg.toParams r }

/-- The events of the orientation command (R173, 30_encoding.md R103). -/
def orientCommand (p : Params) (o : Byte) : List Event := btCmd p.opOrient ++ btData [o]

/-- `ApplyRotation(r)` (R173): state first, then the command. -/
def State.applyRotation (s : State) (r : BitVec 2) : State :=
  (s.setRotation r).emit (orientCommand s.cfg.toParams (orientByte s.cfg.toParams r))

/-! ### The init sequencer -/

/-- The events of the panel's reset pulse (R172, 70_reset_and_hazards.md R241). -/
def resetPulse (p : Params) : List Event :=
  [.rst false, .wait p.tRstHold, .rst true, .wait p.tRstSettle]

/-- The events of one init-table entry: the command, its parameters if it has any, its delay if it has one (R172). -/
def entryEvents (e : InitEntry) : List Event :=
  btCmd e.cmd ++ (if e.params = [] then [] else btData e.params)
    ++ (match e.delay with
        | none => []
        | some d => [.wait d.toNat])

/-- The init table's entries from index `i` on, in order (R172): `seq_idx` is the index of the entry sent. -/
def State.playTable (s : State) : Nat → List InitEntry → State
  | _, [] => s
  | i, e :: rest =>
    ({ s with seqIdx := BitVec.ofNat 8 i }.emit (entryEvents e)).playTable (i + 1) rest

/-- The events of display-on with its settle delay (R172). -/
def displayOnEvents (p : Params) : List Event := btCmd p.opDispon ++ [.wait p.tDispon]

/-- PD_INIT's sequence from the accepted operation to Ready (R170, R172). -/
def State.initSequence (s : State) : State :=
  let s := { s with pdState := .resetting }.emit (resetPulse s.cfg.toParams)
  let s := { s with pdState := .initializing }.playTable 0 s.cfg.initTable
  let s := s.applyRotation s.cfg.defaultRotation
  let s := s.emit (displayOnEvents s.cfg.toParams)
  { s with pdState := .ready }

/-! ### PD_FILLRECT's stream -/

/-- The data brackets of a fill of `n` pixels (R178): batched above the threshold, else pixel by pixel. -/
def fillEvents (p : Params) (c : Half) (n : Nat) : List Event :=
  if fillBatchThreshold < n then
    (batches p.fillBatchPixels n n).flatMap (fun k => btData (wirePixels c k))
  else (List.replicate n (btData (wireHalf c))).flatten

/-! ### Meanings -/

/-- PD_INIT (R172). -/
def execPdInit (handle : Word) (s : State) : Host.Outcome State Fault Refusal :=
  if s.pdState ≠ .uninitialized then .next s.refuse
  else if handleValid s.cfg.toParams handle = false then .next s.refuse
  else .next (s.initSequence.done 1)

/-- PD_SETROT (R174). -/
def execPdSetrot (r : BitVec 2) (s : State) : Host.Outcome State Fault Refusal :=
  if s.pdState ≠ .ready then .next s.refuse else .next ((s.applyRotation r).done 1)

/-- PD_SETWIN (R176): the coordinates are sent as they are. -/
def execPdSetwin (x0 y0 x1 y1 : Half) (s : State) : Host.Outcome State Fault Refusal :=
  if s.pdState ≠ .ready then .next s.refuse
  else .next ((s.emit (setWindow s.cfg.toParams x0 y0 x1 y1)).done 1)

/-- The shared operation of PD_WRDATA and its alias (R177, 30_encoding.md R111). -/
def writeData (addr len : Word) (s : State) : State :=
  if s.pdState ≠ .ready then s.refuse
  else match s.memRead addr.toNat len.toNat with
    | none => s.refuse
    | some bs => (s.emit (btData bs)).done 1

/-- PD_WRDATA (R177). -/
def execPdWrdata (addr len : Word) (s : State) : Host.Outcome State Fault Refusal :=
  .next (writeData addr len s)

/-- PD_WRPIXELS, the alias of PD_WRDATA (30_encoding.md R111). -/
def execPdWrpixels (addr len : Word) (s : State) : Host.Outcome State Fault Refusal :=
  .next (writeData addr len s)

/-- PD_FILLRECT (R178). -/
def execPdFillrect (x y w h : Word) (color : Half) (s : State) : Host.Outcome State Fault Refusal :=
  if s.pdState ≠ .ready then .next s.refuse
  else if s.effW.toNat ≤ x.toNat ∨ s.effH.toNat ≤ y.toNat ∨ w = 0 ∨ h = 0 then
    .next (s.countOob.done 1)
  else
    let w' := clampLen w.toNat s.effW.toNat x.toNat
    let h' := clampLen h.toNat s.effH.toNat y.toNat
    let s' := if w' ≠ w.toNat ∨ h' ≠ h.toNat then s.countOob else s
    .next ((s'.emit
      (setWindow s.cfg.toParams (BitVec.ofNat 16 x.toNat) (BitVec.ofNat 16 y.toNat)
          (BitVec.ofNat 16 (x.toNat + w' - 1)) (BitVec.ofNat 16 (y.toNat + h' - 1))
        ++ fillEvents s.cfg.toParams color (w' * h'))).done 1)

/-- PD_DRAWPIXEL (R179). -/
def execPdDrawpixel (x y : Word) (color : Half) (s : State) : Host.Outcome State Fault Refusal :=
  if s.pdState ≠ .ready then .next s.refuse
  else if s.effW.toNat ≤ x.toNat ∨ s.effH.toNat ≤ y.toNat then .next (s.countOob.done 1)
  else
    .next ((s.emit
      (setWindow s.cfg.toParams (BitVec.ofNat 16 x.toNat) (BitVec.ofNat 16 y.toNat)
          (BitVec.ofNat 16 x.toNat) (BitVec.ofNat 16 y.toNat)
        ++ btData (wireHalf color))).done 1)

/-- PD_SENDDMA (R180). -/
def execPdSenddma (addr : Word) (s : State) : Host.Outcome State Fault Refusal :=
  if s.xfer = .inFlight then .next (s.done 0)
  else if s.pdState ≠ .ready then .next s.refuse
  else if rangeInMem s.cfg.toParams addr.toNat s.screenBytes = false then .next s.refuse
  else
    let s := (s.emit s.screenWindow).btDataDma addr (BitVec.ofNat 32 s.screenBytes)
    .next ({ s with xfer := .inFlight, pdState := .busy }.done 1)

/-- PD_DMADONE (R181). -/
def execPdDmadone (s : State) : Host.Outcome State Fault Refusal :=
  if s.xfer = .idle then .next (s.done 1)
  else match s.btDmaDone with
    | (s', true) => .next ({ s' with xfer := .idle, pdState := .ready }.done 1)
    | (s', false) => .next (s'.done 0)

/-- PD_GETW (R182). -/
def execPdGetw (s : State) : Host.Outcome State Fault Refusal := .next (s.done (s.effW.setWidth 32))

/-- PD_GETH (R183). -/
def execPdGeth (s : State) : Host.Outcome State Fault Refusal := .next (s.done (s.effH.setWidth 32))

/-- RESERVED (30_encoding.md R98): accepted and refused. -/
def execReserved (_op : Byte) (s : State) : Host.Outcome State Fault Refusal := .next s.refuse

end Sys2Proof.Machine
end

