-- ==== Sys2Proof/Machine/FrameBuffer.lean ====
section
/-! DEFINITION. The FrameBuffer address controller FB: the meanings of the six FB operations
(spec/43_framebuffer.md). -/

namespace Sys2Proof.Machine

open Sys2Proof

/-- Both buffers cleared to the default colour: `PixStore(b, i, DEFAULT_COLOR)` for both `b` and every element `i`
(R202). A well-formed parameter set holds both buffers in engine memory. -/
def State.clearBuffers (s : State) : State :=
  let px := wirePixels s.cfg.defaultColor (s.cfg.panelW * s.cfg.panelH)
  (s.memWrite (bufBase s.cfg.toParams 0) px).memWrite (bufBase s.cfg.toParams 1) px

/-- The full-screen window and one data bracket of bytes: how FB_INIT and FB_PRESENT send the front buffer
(R202, R207). -/
def State.sendScreen (s : State) (bs : List Byte) : State := s.emit (s.screenWindow ++ btData bs)

/-- FB_INIT (R202). -/
def execFbInit (s : State) : Host.Outcome State Fault Refusal :=
  if s.pdState ≠ .ready then .next s.refuse
  else
    let s := s.clearBuffers
    .next ((s.sendScreen (s.bytesAt (bufBase s.cfg.toParams s.front) s.cfg.bufBytes)).done 1)

/-- FB_FILL (R203). -/
def execFbFill (color : Half) (s : State) : Host.Outcome State Fault Refusal :=
  if s.owned then .next s.refuse
  else .next ((s.pixStores s.back 0 (s.effW.toNat * s.effH.toNat) color).done 1)

/-- FB_SETPIXEL (R204). -/
def execFbSetpixel (x y : Word) (color : Half) (s : State) : Host.Outcome State Fault Refusal :=
  if s.owned then .next s.refuse
  else if x.toNat < s.effW.toNat ∧ y.toNat < s.effH.toNat then
    .next ((s.pixStores s.back (y.toNat * s.effW.toNat + x.toNat) 1 color).done 1)
  else .next (s.countOob.done 1)

/-- FB_DRAWLINE (R205). -/
def execFbDrawline (x y len : Word) (color : Half) (s : State) : Host.Outcome State Fault Refusal :=
  if s.owned then .next s.refuse
  else if s.effW.toNat ≤ x.toNat ∨ s.effH.toNat ≤ y.toNat then .next (s.countOob.done 1)
  else
    let n := clampLen len.toNat s.effW.toNat x.toNat
    let s1 := if n ≠ len.toNat then s.countOob else s
    .next ((s1.pixStores s.back (y.toNat * s.effW.toNat + x.toNat) n color).done 1)

/-- FB_SWAP (R206). -/
def execFbSwap (s : State) : Host.Outcome State Fault Refusal :=
  .next ({ s with front := 1 - s.front }.done 1)

/-- FB_PRESENT (R207). -/
def execFbPresent (s : State) : Host.Outcome State Fault Refusal :=
  if s.pdState ≠ .ready then .next s.refuse
  else .next ((s.sendScreen (s.bytesAt (bufBase s.cfg.toParams s.front) s.screenBytes)).done 1)

end Sys2Proof.Machine
end

