-- ==== Sys2Proof/Machine/WireCommands.lean ====
section
/-! DEFINITION. The wire commands (spec/30_encoding.md R101): what RX does when it is sent one, its command byte in a
command bracket and its data bytes, if any, in a data bracket (R100, R105; log 11). -/

namespace Sys2Proof.Machine

open Sys2Proof

/-- The events of one wire command from a driver of the link (30_encoding.md R100, R105). -/
def wireEvents (b : Byte) (data : List Byte) : List Event :=
  btCmd b ++ (if data = [] then [] else btData data)

/-- RX takes events that another driver of the link makes: no ENGINE state changes (41_receiver.md R140, R142). -/
def State.receive (s : State) (es : List Event) : State := { s with rx := Rx.events s.cfg.toParams s.rx es }

/-- column-range (41_receiver.md R146, R147). -/
def execColumnRange (data : List Byte) (s : State) : Host.Outcome State Fault Refusal :=
  .next (s.receive (wireEvents s.cfg.opColrange data))

/-- row-range (41_receiver.md R146, R148). -/
def execRowRange (data : List Byte) (s : State) : Host.Outcome State Fault Refusal :=
  .next (s.receive (wireEvents s.cfg.opRowrange data))

/-- begin memory write and its pixel stream (41_receiver.md R146, R151, R154, R155). -/
def execBeginMemoryWrite (data : List Byte) (s : State) : Host.Outcome State Fault Refusal :=
  .next (s.receive (wireEvents s.cfg.opMemwrite data))

/-- orientation (41_receiver.md R146, R149). -/
def execOrientation (data : List Byte) (s : State) : Host.Outcome State Fault Refusal :=
  .next (s.receive (wireEvents s.cfg.opOrient data))

/-- display-on (41_receiver.md R146, R150). -/
def execDisplayOn (data : List Byte) (s : State) : Host.Outcome State Fault Refusal :=
  .next (s.receive (wireEvents s.cfg.opDispon data))

/-- A vendor command (41_receiver.md R146, R152, R153). -/
def execVendor (cmd : Byte) (data : List Byte) (s : State) : Host.Outcome State Fault Refusal :=
  .next (s.receive (wireEvents cmd data))

end Sys2Proof.Machine
end

