-- ==== Sys2Proof/Machine/HostPort.lean ====
section
/-! DEFINITION. The host port: accepting a command word, the word that the latches hold, the status outputs
(spec/10_state.md R21, R22, R29, R35, R52), the ENGINE's own reset (spec/70_reset_and_hazards.md R240), and the moves
of the outside other than an operation. -/

namespace Sys2Proof.Machine

open Sys2Proof

/-! ### Command port -/

/-- The fields of a command word latched into `op` and `A0..A4` (10_state.md R21, R22). -/
def State.latch (s : State) (w : CommandWord) : State :=
  { s with op := cwOp w, a0 := cwA0 w, a1 := cwA1 w, a2 := cwA2 w, a3 := cwA3 w, a4 := cwA4 w }

/-- A command word is accepted (10_state.md R29, R52): it is latched, `busy` is 1. -/
def State.accept (s : State) (w : CommandWord) : State :=
  { s.latch w with busy := true, rspValid := false }

/-- The command word that the latches hold: what the ENGINE's decoder reads (10_state.md R21, R22). -/
def State.latchedWord (s : State) : CommandWord := packCw s.op s.a0 s.a1 s.a2 s.a3 s.a4

/-- The operation in the latches (10_state.md R21, 30_encoding.md R92). -/
def State.latchedInstr (s : State) : Instr := decodeCw s.cfg.profile s.latchedWord

/-- `rsp_valid` goes low again: it is high for one transfer (10_state.md R52; log 10). -/
def State.lowerValid (s : State) : State := { s with rspValid := false }

/-- The next input item is used up. -/
def State.consume (s : State) : State := { s with rspValid := false, inputs := s.inputs.tail }

/-- The moves of the outside without those in front that would abandon an operation (log 8). -/
def dropAbandoning : List Input → List Input
  | .porDuring _ _ :: rest => dropAbandoning rest
  | inputs => inputs

/-- `cmd_ready = not busy` (10_state.md R52). -/
def State.cmdReady (s : State) : Bool := !s.busy

/-! ### Status outputs -/

/-- The encoding of `pd_state` (10_state.md R24). -/
def pdCode : PdState → BitVec 3
  | .uninitialized => 0
  | .resetting => 1
  | .initializing => 2
  | .ready => 3
  | .busy => 4

/-- The encoding of `xfer` (10_state.md R25). -/
def xferCode : Xfer → BitVec 1
  | .idle => 0
  | .inFlight => 1

/-- The status outputs (10_state.md R35). -/
structure Status where
  stPd : BitVec 3
  stXfer : BitVec 1
  stFront : BitVec 1
  stRot : BitVec 2
  stW : Half
  stH : Half
  stDiag : Word
deriving DecidableEq, Repr

/-- What the HOST sees of the state besides the response (10_state.md R35). -/
def State.status (s : State) : Status :=
  { stPd := pdCode s.pdState, stXfer := xferCode s.xfer, stFront := s.front, stRot := s.rot,
    stW := s.effW, stH := s.effH, stDiag := s.diagOob }

/-! ### The ENGINE's own reset -/

/-- What the link has seen of an operation abandoned after its first `k` events: those events, and of a wait that
it stood in, `ms` milliseconds, never more than the wait's own (log 9). -/
def cutEvents (es : List Event) (k ms : Nat) : List Event :=
  es.take k ++ (match es[k]? with
    | some (.wait d) => [.wait (min ms d)]
    | _ => [])

/-- The ENGINE's own reset (70_reset_and_hazards.md R240), after RX has taken the events `es` of the operation that
it abandons: every ENGINE and DMA element takes its reset value, engine memory is unspecified anew, the trace starts
again; RX is not reset and sees only the lines return. -/
def State.engineReset (s : State) (es : List Event) : State :=
  { State.resetOf s.cfg with
    memEpoch := s.memEpoch + 1, inputs := s.inputs,
    rx := (Rx.events s.cfg.toParams s.rx es).seeEngineReset }

/-- The events that an operation has added to the trace of the state it began in. -/
def newEvents (before after : State) : List Event := after.trace.drop before.trace.length

end Sys2Proof.Machine
end

