-- ==== Sys2Proof/Machine/Dispatch.lean ====
section
/-! DEFINITION. The dispatch: one arm per constructor of `Instr`. -/

namespace Sys2Proof.Machine

open Sys2Proof

def exec (i : Instr) (s : State) : Host.Outcome State Fault Refusal :=
  match i with
  -- FrameBuffer operations (spec/43_framebuffer.md)
  | .fbInit => Sys2Proof.Machine.execFbInit s
  | .fbFill color => Sys2Proof.Machine.execFbFill color s
  | .fbSetpixel x y color => Sys2Proof.Machine.execFbSetpixel x y color s
  | .fbDrawline x y len color => Sys2Proof.Machine.execFbDrawline x y len color s
  | .fbSwap => Sys2Proof.Machine.execFbSwap s
  | .fbPresent => Sys2Proof.Machine.execFbPresent s
  -- Panel Driver operations (spec/42_panel_driver.md)
  | .pdInit handle => Sys2Proof.Machine.execPdInit handle s
  | .pdSetrot r => Sys2Proof.Machine.execPdSetrot r s
  | .pdSetwin x0 y0 x1 y1 => Sys2Proof.Machine.execPdSetwin x0 y0 x1 y1 s
  | .pdWrdata addr len => Sys2Proof.Machine.execPdWrdata addr len s
  | .pdFillrect x y w h color => Sys2Proof.Machine.execPdFillrect x y w h color s
  | .pdDrawpixel x y color => Sys2Proof.Machine.execPdDrawpixel x y color s
  | .pdSenddma addr => Sys2Proof.Machine.execPdSenddma addr s
  | .pdDmadone => Sys2Proof.Machine.execPdDmadone s
  | .pdGetw => Sys2Proof.Machine.execPdGetw s
  | .pdGeth => Sys2Proof.Machine.execPdGeth s
  | .pdWrpixels addr len => Sys2Proof.Machine.execPdWrpixels addr len s
  | .reserved op => Sys2Proof.Machine.execReserved op s
  -- wire commands (spec/41_receiver.md)
  | .columnRange data => Sys2Proof.Machine.execColumnRange data s
  | .rowRange data => Sys2Proof.Machine.execRowRange data s
  | .beginMemoryWrite data => Sys2Proof.Machine.execBeginMemoryWrite data s
  | .orientation data => Sys2Proof.Machine.execOrientation data s
  | .displayOn data => Sys2Proof.Machine.execDisplayOn data s
  | .vendor cmd data => Sys2Proof.Machine.execVendor cmd data s

end Sys2Proof.Machine
end

