-- ==== Sys2Proof/Machine/Run.lean ====
section
/-! DEFINITION. The moves of one step: the operation in progress, a wire command, an abandoning reset, and the next
move of the outside. -/

namespace Sys2Proof.Machine

open Sys2Proof

/-- The operation in progress runs, whole (spec/10_state.md R52). -/
def runLatched (s : State) : Host.Outcome State Fault Refusal := exec s.latchedInstr s

/-- One wire command from another driver of the link runs in RX. -/
def runWire (s : State) (bytes : List Byte) : Host.Outcome State Fault Refusal :=
  match decode s.cfg.toParams (.wire bytes) with
  | .ok i => exec i s
  | .error e => .refused (.undecodable e)

/-- The ENGINE's own reset abandons the operation in progress (spec/70_reset_and_hazards.md R240). -/
def runAbandoned (s : State) (k ms : Nat) : Host.Outcome State Fault Refusal :=
  match runLatched s with
  | .next t => .next (s.consume.engineReset (cutEvents (newEvents s t) k ms))
  | .fault f => .fault f
  | .refused r => .refused r

/-- A step while an operation is in progress: it runs whole, and nothing is accepted meanwhile (spec/10_state.md R29,
R52), unless the ENGINE's own reset abandons it. -/
def stepBusy (s : State) : Host.Outcome State Fault Refusal :=
  match s.inputs with
  | .porDuring k ms :: _ => runAbandoned s k ms
  | _ => runLatched s

/-- A step while no operation is in progress: the next move of the outside; with none left the machine idles. -/
def stepIdle (s : State) : Host.Outcome State Fault Refusal :=
  match s.inputs with
  | [] => .next s.lowerValid
  | .cmd w :: _ => .next (s.consume.accept w)
  | .wire bytes :: _ => runWire s.consume bytes
  | .event e :: _ => .next (s.consume.receive [e])
  | .dmaStep :: _ => .next s.consume.dmaTurn
  | .por :: _ => .next (s.consume.engineReset [])
  | .porDuring _ _ :: _ => .next (s.consume.engineReset [])

end Sys2Proof.Machine
end

