-- ==== Sys2Proof/Machine/Step.lean ====
section
/-! DEFINITION. One step of the machine, and where it fetches its next instruction. -/

namespace Sys2Proof.Machine

open Sys2Proof

/-- One step (spec/10_state.md R52, spec/40_bus_transport.md R125, spec/41_receiver.md R141). -/
def step (s : State) : Host.Outcome State Fault Refusal := if s.busy then stepBusy s else stepIdle s

/-- The state in which the next step runs exactly the instruction whose bits are `w`: a host operation stands in the
latches, accepted, and nothing abandons it; a wire command is the next move of the outside (log 8). -/
def State.withFetchWord (s : State) (nbits w : Nat) : State :=
  match tableCode s.cfg.toParams nbits w with
  | .cw c => { s.latch c with busy := true, inputs := dropAbandoning s.inputs }
  | .wire bytes => { s with busy := false, inputs := .wire bytes :: s.inputs }

end Sys2Proof.Machine
end

