-- ==== Sys2Proof/Safety.lean ====
section
/-! DEFINITION. What claims are stated in: the invariant between operations (spec/10_state.md R37), the shape of the
wire trace (spec/40_bus_transport.md R130), and the link kept free of violations (spec/41_receiver.md R160). -/

namespace Sys2Proof.Machine

open Sys2Proof

/-! ### The invariant -/

/-- What holds of every state between operations: 10_state.md R37 (a) to (f), and the forms of the two memories. -/
structure State.Inv (s : State) : Prop where
  /-- Engine memory keeps its canonical form. -/
  memForm : Memory.wf s.mem = true
  /-- Only bytes of engine memory are listed (20_memory.md R60). -/
  memInside : ∀ c ∈ s.mem, c.1 < s.cfg.memBytes
  /-- The panel memory has its rows and columns (20_memory.md R70). -/
  gramForm : Gram.wf s.cfg.toParams s.rx.gram = true
  /-- R37 (a), first half. -/
  busyIff : s.pdState = .busy ↔ s.xfer = .inFlight
  /-- R37 (a), second half. -/
  activeIff : s.xfer = .inFlight ↔ s.dma.active = true
  /-- R37 (b). -/
  csIff : s.cs = false ↔ s.xfer = .inFlight
  /-- A transfer's bracket is a data bracket (40_bus_transport.md R123, R125). -/
  dcHigh : s.xfer = .inFlight → s.dc = true
  /-- R37 (c). -/
  pdStates : s.pdState = .uninitialized ∨ s.pdState = .ready ∨ s.pdState = .busy
  /-- R37 (d). -/
  rstHigh : s.rst = true
  /-- R37 (e), width. -/
  width : s.effW = rotW s.cfg.toParams s.rot
  /-- R37 (e), height. -/
  height : s.effH = rotH s.cfg.toParams s.rot
  /-- R37 (e), orientation byte. -/
  orientation : s.orient = orientByte s.cfg.toParams s.rot ∨ (s.pdState = .uninitialized ∧ s.orient = 0)
  /-- R37 (f), first half. -/
  rangeInside : s.xfer = .inFlight → s.dma.base.toNat + s.dma.len.toNat ≤ s.cfg.memBytes
  /-- R37 (f), second half: `ptr` stands behind the bytes already sent. -/
  progress : s.xfer = .inFlight → s.dma.rem ≤ s.dma.len ∧ s.dma.ptr = s.dma.base + (s.dma.len - s.dma.rem)
  /-- `dma.done` says that no byte is left (40_bus_transport.md R123, R125). -/
  doneIff : s.xfer = .inFlight → (s.dma.done = true ↔ s.dma.rem = 0)

/-! ### The shape of the trace -/

/-- Where a wire trace stands (40_bus_transport.md R120, R130). -/
inductive Shape where
  /-- between items -/
  | closed
  /-- chip-select asserted, mode not set -/
  | selected
  /-- command bracket without its byte -/
  | cmdOpen
  /-- command bracket with its one byte -/
  | cmdSent
  /-- data bracket -/
  | dataOpen
  /-- panel reset asserted -/
  | pulseLow
  /-- panel reset held for its time -/
  | pulseHeld
  /-- panel reset released -/
  | pulseHigh
  /-- no trace of the block -/
  | broken
deriving DecidableEq, Repr

/-- The shape after one more event: brackets `CS(0) DC(l) TX* CS(1)`, a command bracket with exactly one byte, waits
outside brackets, and the panel reset as `RST(0) WAIT(h) RST(1) WAIT(s)` (40_bus_transport.md R130). -/
def shapeStep (p : Params) : Shape → Event → Shape
  | .closed, .cs false => .selected
  | .closed, .wait _ => .closed
  | .closed, .rst false => .pulseLow
  | .selected, .dc false => .cmdOpen
  | .selected, .dc true => .dataOpen
  | .cmdOpen, .tx _ => .cmdSent
  | .cmdSent, .cs true => .closed
  | .dataOpen, .tx _ => .dataOpen
  | .dataOpen, .cs true => .closed
  | .pulseLow, .wait ms => if ms = p.tRstHold then .pulseHeld else .broken
  | .pulseHeld, .rst true => .pulseHigh
  | .pulseHigh, .wait ms => if ms = p.tRstSettle then .closed else .broken
  | _, _ => .broken

/-- The shape of a trace that starts between items. -/
def shapeOf (p : Params) (es : List Event) : Shape := es.foldl (shapeStep p) .closed

/-- 40_bus_transport.md R130: whole items only, but for the data bracket of a transfer in flight. -/
def State.traceShaped (s : State) : Prop :=
  shapeOf s.cfg.toParams s.trace = if s.xfer = .inFlight then .dataOpen else .closed

/-! ### Bytes and brackets of a trace -/

/-- The bytes that events send. -/
def txBytes : List Event → List Byte
  | [] => []
  | .tx b :: es => b :: txBytes es
  | _ :: es => txBytes es

/-- The pixels of a data stream: each two bytes, the first the more significant; an odd last byte is none
(41_receiver.md R154). -/
def wholePixels : List Byte → List Half
  | hi :: lo :: bs => pixelOf hi lo :: wholePixels bs
  | _ => []

/-- The number of brackets that events open (70_reset_and_hazards.md R257). -/
def bracketsOpened : List Event → Nat
  | [] => 0
  | .cs false :: es => bracketsOpened es + 1
  | _ :: es => bracketsOpened es

/-! ### The link free of violations -/

/-- The next input is no move of another driver of the link and no reset that cuts an operation short. -/
def State.blockMoves (s : State) : Prop :=
  match s.inputs with
  | .wire _ :: _ => s.busy = true
  | .event _ :: _ => s.busy = true
  | .porDuring _ _ :: _ => s.busy = false
  | _ => True

/-- The contracts of 41_receiver.md R160's last paragraph on an operation: PD_SETWIN's window is a rectangle inside the
geometry (R158), PD_WRDATA sends an even number of bytes. DESIGN CHOICE (log 25): an operation that the Ready check
refuses is not counted here, nor in State, as a broken contract of the caller, which 42_panel_driver.md R171 advises and
93_implementation_defined.md U1 leaves to the model: it is refused, and `needsReady` names the operations. DESIGN CHOICE (log 26): nor is a PD_WRDATA
without its own window, which 70_reset_and_hazards.md R245 and U2 leave to the model: RX's rules say where its bytes go. -/
def contractKept (s : State) : Instr → Prop
  | .pdSetwin x0 y0 x1 y1 => x0 ≤ x1 ∧ x1 < s.effW ∧ y0 ≤ y1 ∧ y1 < s.effH
  | .pdWrdata _ len => len.toNat % 2 = 0
  | .pdWrpixels _ len => len.toNat % 2 = 0
  | _ => True

/-- No entry of the init table is one of the five named commands (41_receiver.md R163 (a)). -/
def vendorTable (p : Params) : Prop := ∀ e ∈ p.initTable, e.cmd ∉ p.namedCommands

/-- RX's pointer stands inside a valid window (41_receiver.md R155, R158). -/
def Rx.pointerInside (p : Params) (r : Rx) : Prop :=
  windowValid p r = true ∧ r.xs ≤ r.col ∧ r.col ≤ r.xe ∧ r.ys ≤ r.row ∧ r.row ≤ r.ye

/-- RX sees the lines that the ENGINE drives, no violation flag is set, and RX stands where the ENGINE's last
operation left it. -/
structure State.LinkClean (s : State) : Prop where
  /-- RX's levels are the ENGINE's (10_state.md R30, R40). -/
  lines : s.rx.cs = s.cs ∧ s.rx.dc = s.dc ∧ s.rx.rst = s.rst
  /-- No violation flag is set (41_receiver.md R160). -/
  noViol : s.rx.viol = Viol.clear
  /-- After PD_INIT the settle floor is passed (41_receiver.md R159). -/
  settled : s.pdState ≠ .uninitialized → rstSettleMin ≤ s.rx.settleMs
  /-- After PD_INIT both ends have the same orientation byte (41_receiver.md R156). -/
  sameOrient : s.pdState ≠ .uninitialized → s.rx.orient = s.orient
  /-- After PD_INIT either RX writes memory with its pointer inside a valid window, or its last command ignores
  further data bytes (70_reset_and_hazards.md R245). -/
  command : s.pdState ≠ .uninitialized →
    (s.rx.memwr = true ∧ s.rx.cmd.isSome = true ∧ s.rx.pointerInside s.cfg.toParams)
    ∨ (s.rx.memwr = false ∧ (s.rx.cmd = some s.cfg.opDispon ∨ (s.rx.cmd = some s.cfg.opOrient ∧ 1 ≤ s.rx.pidx)))
  /-- No half pixel is pending in Ready. -/
  whole : s.pdState = .ready → s.rx.half = none
  /-- During a transfer RX writes memory, and a half pixel is pending exactly when an odd number of bytes is left. -/
  streaming : s.pdState = .busy → s.rx.memwr = true ∧ (s.rx.half.isSome = true ↔ s.dma.rem.toNat % 2 = 1)

/-! ### Host operations -/

/-- The instruction is a host operation, of format CW (30_encoding.md R90), not a wire command. -/
def hostOperation : Instr → Bool
  | .fbInit => true
  | .fbFill _ => true
  | .fbSetpixel _ _ _ => true
  | .fbDrawline _ _ _ _ => true
  | .fbSwap => true
  | .fbPresent => true
  | .pdInit _ => true
  | .pdSetrot _ => true
  | .pdSetwin _ _ _ _ => true
  | .pdWrdata _ _ => true
  | .pdFillrect _ _ _ _ _ => true
  | .pdDrawpixel _ _ _ => true
  | .pdSenddma _ => true
  | .pdDmadone => true
  | .pdGetw => true
  | .pdGeth => true
  | .pdWrpixels _ _ => true
  | .reserved _ => true
  | .columnRange _ => false
  | .rowRange _ => false
  | .beginMemoryWrite _ => false
  | .orientation _ => false
  | .displayOn _ => false
  | .vendor _ _ => false

/-- The operations that use the link and need Ready (42_panel_driver.md R171). -/
def needsReady : Instr → Bool
  | .fbInit => true
  | .fbPresent => true
  | .pdSetrot _ => true
  | .pdSetwin _ _ _ _ => true
  | .pdWrdata _ _ => true
  | .pdWrpixels _ _ => true
  | .pdFillrect _ _ _ _ _ => true
  | .pdDrawpixel _ _ _ => true
  | .pdSenddma _ => true
  | _ => false

/-- The operations that draw into the back buffer (43_framebuffer.md R201). -/
def drawsBack : Instr → Bool
  | .fbFill _ => true
  | .fbSetpixel _ _ _ => true
  | .fbDrawline _ _ _ _ => true
  | _ => false

/-- The state in which a host operation has ended with the response `v` and nothing else has changed
(00_scope.md R14). -/
def State.answered (s : State) (v : Word) : State := { s with rsp := v, busy := false, rspValid := true }

end Sys2Proof.Machine
end

