-- ==== Sys2Proof/Certificates/Slice0/Obligations.lean ====
section
/-! DEFINITION. The statements for the provers. Each docstring names the rules of spec/ that it formalises. -/

open Sys2Proof
open Sys2Proof.Machine

/-! ### Reset -/

/-- 10_state.md R50: the ENGINE's state after its own reset, for every parameter set. Every byte of engine memory is
without a value of its own. -/
def Obligations.ResetGivesEngineValues : Prop :=
  ∀ c : Config, let s := State.resetOf c
    s.op = 0 ∧ s.a0 = 0 ∧ s.a1 = 0 ∧ s.a2 = 0 ∧ s.a3 = 0 ∧ s.a4 = 0 ∧ s.rsp = 0 ∧ s.busy = false
    ∧ pdCode s.pdState = 0 ∧ s.seqIdx = 0 ∧ xferCode s.xfer = 0 ∧ s.front = 0 ∧ s.rot = 0
    ∧ s.effW.toNat = c.panelW ∧ s.effH.toNat = c.panelH ∧ s.orient = 0
    ∧ s.cs = true ∧ s.dc = true ∧ s.rst = true
    ∧ (∀ a, cellGet s.mem a = none)
    ∧ s.dma.active = false ∧ s.dma.done = false ∧ s.dma.base = 0 ∧ s.dma.len = 0 ∧ s.dma.ptr = 0
    ∧ s.dma.rem = 0 ∧ s.diagOob = 0 ∧ s.trace = []

/-- 10_state.md R51: RX's state at power-on, and after `RST(0)` takes the line low. -/
def Obligations.ReceiverResetValues : Prop :=
  (∀ c : Config, let r := (State.resetOf c).rx
    r.cs = true ∧ r.dc = true ∧ r.rst = true ∧ r.cmd = none ∧ r.pidx = 0
    ∧ r.xs = 0 ∧ r.xe.toNat = c.panelW - 1 ∧ r.ys = 0 ∧ r.ye.toNat = c.panelH - 1
    ∧ r.memwr = false ∧ r.col = 0 ∧ r.row = 0 ∧ r.half = none ∧ r.orient = 0 ∧ r.dispOn = false
    ∧ (∀ pc pr, r.cell pc pr = none) ∧ r.holdMs = 0 ∧ r.settleMs = 0 ∧ r.viol = Viol.clear ∧ r.vendorLog = [])
  ∧ (∀ (c : Config) (r : Rx), r.rst = true → let r' := Rx.event c.toParams r (.rst false)
    r'.cs = r.cs ∧ r'.dc = r.dc ∧ r'.rst = false ∧ r'.cmd = none ∧ r'.pidx = 0
    ∧ r'.xs = 0 ∧ r'.xe.toNat = c.panelW - 1 ∧ r'.ys = 0 ∧ r'.ye.toNat = c.panelH - 1
    ∧ r'.memwr = false ∧ r'.col = 0 ∧ r'.row = 0 ∧ r'.half = none ∧ r'.orient = 0 ∧ r'.dispOn = false
    ∧ (∀ pc pr, r'.cell pc pr = none) ∧ r'.holdMs = 0 ∧ r'.settleMs = r.settleMs ∧ r'.viol = r.viol
    ∧ r'.vendorLog = r.vendorLog)

/-- 10_state.md R37, 40_bus_transport.md R130, 41_receiver.md R160: the three properties that steps keep hold after
reset, for every parameter set. -/
def Obligations.ResetMeetsInvariants : Prop :=
  ∀ c : Config, (State.resetOf c).Inv ∧ (State.resetOf c).traceShaped ∧ (State.resetOf c).LinkClean

/-- 10_state.md R37: every step keeps the invariant, from every state that has it, whatever the outside does. -/
def Obligations.StepKeepsInvariant : Prop := ∀ s t : State, s.Inv → step s = .next t → t.Inv

/-- 70_reset_and_hazards.md R240: every ENGINE and DMA element takes its reset value, with no response, bytes written
before have no value left, and RX keeps everything but the levels of its lines, with a reset pulse cut short marked.
First with no operation in progress, then with one in progress, which is abandoned: RX has taken the first `k` of the
events it makes and, of a wait that comes next, at most `ms` milliseconds. The cut point, the one step a reset takes and
the counter `memEpoch` are the model's (logs 4, 7, 9). -/
def Obligations.EngineResetKeepsReceiver : Prop :=
  ∀ (s : State) (rest : List Input),
    let leaves : Rx → State → Prop := fun r t =>
      t = { State.resetOf s.cfg with rx := t.rx, memEpoch := s.memEpoch + 1, inputs := rest }
      ∧ (r.rst = true → t.rx = { r with cs := true, dc := true })
      ∧ (r.rst = false →
          t.rx = { r with cs := true, dc := true, rst := true, settleMs := 0,
                          viol := { r.viol with rstPulse := r.viol.rstPulse || decide (r.holdMs < 10) } })
    (s.busy = false → (s.inputs = .por :: rest ∨ ∃ k ms, s.inputs = .porDuring k ms :: rest) →
      ∃ t, step s = .next t ∧ leaves s.rx t)
    ∧ ∀ (i : Instr) (k ms : Nat), s.busy = true → s.inputs = .porDuring k ms :: rest →
      decode s.cfg.toParams (.cw (packCw s.op s.a0 s.a1 s.a2 s.a3 s.a4)) = .ok i →
      ∃ (t u : State) (es seen : List Event),
        exec i s = .next u ∧ u.trace = s.trace ++ es
        ∧ ((∀ d, es[k]? ≠ some (.wait d)) → seen = es.take k)
        ∧ (∀ d, es[k]? = some (.wait d) → seen = es.take k ++ ([.wait (min ms d)] : List Event))
        ∧ step s = .next t ∧ leaves (Rx.events s.cfg.toParams s.rx seen) t

/-- 70_reset_and_hazards.md R240: a reset during PD_INIT's reset pulse, after `ms` of its hold time, leaves RX reset,
released and with V_RSTPULSE when the pulse was shorter than 10 ms. The cut point is the model's (log 9). -/
def Obligations.ResetDuringPulseMarksReceiver : Prop :=
  ∀ (s : State) (h : Word) (ms : Nat) (rest : List Input), s.Inv → s.LinkClean →
    s.busy = true → s.latchedInstr = .pdInit h → s.pdState = .uninitialized →
    handleValid s.cfg.toParams h = true → s.inputs = .porDuring 1 ms :: rest → ms ≤ s.cfg.tRstHold →
    ∃ t, step s = .next t ∧ t.pdState = .uninitialized ∧ t.busy = false ∧ t.rsp = 0 ∧ t.trace = []
      ∧ t.rst = true ∧ t.rx.rst = true ∧ t.rx.holdMs = ms ∧ t.rx.settleMs = 0
      ∧ t.rx.gram = Gram.unwritten s.cfg.toParams ∧ t.rx.viol.rstPulse = decide (ms < 10)

/-! ### Encodings -/

/-- 30_encoding.md R90 to R94, R101, R111: an encoded instruction decodes to itself, an alias to what it stands for. -/
def Obligations.DecodeUndoesEncode : Prop :=
  ∀ (c : Config) (i : Instr), WellFormed c.toParams i = true →
    decode c.toParams (encode c.toParams i) = .ok i.canonical

/-- 30_encoding.md R101, R105: any command byte with any data bytes is one wire command, and no other bytes are
encoded the same. -/
def Obligations.WireCommandsEncodeBack : Prop :=
  ∀ (c : Config) (b : Byte) (data : List Byte),
    ∃ i, decode c.toParams (.wire (b :: data)) = .ok i ∧ WellFormed c.toParams i = true
      ∧ hostOperation i = false ∧ encode c.toParams i = .wire (b :: data)

/-- 30_encoding.md R92, R98: every command word is a host operation of the profile; encoding it again keeps its opcode
and its meaning, so what a word loses on the way are bits that its operation ignores. -/
def Obligations.CommandWordsDecodeTotally : Prop :=
  ∀ (c : Config) (w : CommandWord),
    WellFormed c.toParams (decodeCw c.profile w) = true ∧ hostOperation (decodeCw c.profile w) = true
    ∧ ∃ w', encode c.toParams (decodeCw c.profile w) = .cw w' ∧ cwOp w' = cwOp w
        ∧ decodeCw c.profile w' = decodeCw c.profile w

/-- 30_encoding.md R93, R94: the operand bits that each operation of the full profile uses; all others are ignored. -/
def Obligations.OperandBitsUsed : Prop :=
  ∀ a0 a1 a2 a3 a4 : Word, let d := fun op => decodeCw .full (packCw op a0 a1 a2 a3 a4)
    d 0x10 = .fbInit ∧ d 0x11 = .fbFill (a0.setWidth 16)
    ∧ d 0x12 = .fbSetpixel a0 a1 (a2.setWidth 16) ∧ d 0x13 = .fbDrawline a0 a1 a2 (a3.setWidth 16)
    ∧ d 0x14 = .fbSwap ∧ d 0x15 = .fbPresent ∧ d 0x20 = .pdInit a0 ∧ d 0x21 = .pdSetrot (a0.setWidth 2)
    ∧ d 0x22 = .pdSetwin (a0.setWidth 16) (a1.setWidth 16) (a2.setWidth 16) (a3.setWidth 16)
    ∧ d 0x23 = .pdWrdata a0 a1 ∧ d 0x24 = .pdFillrect a0 a1 a2 a3 (a4.setWidth 16)
    ∧ d 0x25 = .pdDrawpixel a0 a1 (a2.setWidth 16) ∧ d 0x26 = .pdSenddma a0 ∧ d 0x27 = .pdDmadone
    ∧ d 0x28 = .pdGetw ∧ d 0x29 = .pdGeth

/-- 95_test_vectors.md V-E1, V-E2, V-E4 and 30_encoding.md R101: a few words written out decode to what they stand for. -/
def Obligations.SampleWordsDecode : Prop :=
  decodeTableWord 168 0x240000009F000000000000000A000000010000001F = some (.pdFillrect 159 0 10 1 0x001F)
  ∧ decodeTableWord 168 0x1200000002000000010000F8000000000000000000 = some (.fbSetpixel 2 1 0xF800)
  ∧ decodeTableWord 168 0x200000000100000000000000000000000000000000 = some (.pdInit 1)
  ∧ decodeTableWord 8 0x2C = some (.beginMemoryWrite [])
  ∧ decodeTableWord 8 0x3A = some (.vendor 0x3A [])

/-- 30_encoding.md R108: the ROM of an init table within its bounds holds exactly that table. -/
def Obligations.RomHoldsInitTable : Prop :=
  ∀ t : List InitEntry, t.length ≤ 255 → (∀ e ∈ t, e.params.length ≤ 127) →
    romDecode (romEncode t) = some t

/-- 30_encoding.md R98: a command word whose opcode is in none of the ranges of the map, or that the minimal profile
reserves, is accepted and refused: only `op`, `A0..A4`, `busy` and `rsp` change and `rsp` is 0. -/
def Obligations.ReservedWordsAreRefused : Prop :=
  ∀ (s : State) (w : CommandWord) (rest : List Input),
    s.busy = false → s.inputs = .cmd w :: rest → (∀ k ms, rest.head? ≠ some (.porDuring k ms)) →
    (cwOp w ≤ 0x0F ∨ (0x16 ≤ cwOp w ∧ cwOp w ≤ 0x1F) ∨ 0x2A ≤ cwOp w
      ∨ (s.cfg.profile = .minimal
          ∧ ((0x10 ≤ cwOp w ∧ cwOp w ≤ 0x15) ∨ cwOp w = 0x23 ∨ cwOp w = 0x26))) →
    ∃ t, step s = .next t ∧ t.busy = true
      ∧ step t = .next { s with
          op := w.extractLsb' 160 8, a0 := w.extractLsb' 128 32, a1 := w.extractLsb' 96 32,
          a2 := w.extractLsb' 64 32, a3 := w.extractLsb' 32 32, a4 := w.extractLsb' 0 32,
          rsp := 0, busy := false, rspValid := true, inputs := rest }

/-- 30_encoding.md R98: RESERVED answers 0 and changes nothing else, whatever its opcode. -/
def Obligations.ReservedAnswersZero : Prop :=
  ∀ (op : Byte) (s : State), exec (.reserved op) s = .next (s.answered 0)

/-! ### The step -/

/-- 10_state.md R21, R52: with an operation in progress that no reset abandons, a step runs the operation that the
latches encode, exactly. -/
def Obligations.StepRunsLatchedOperation : Prop :=
  ∀ (s : State) (i : Instr), s.busy = true → (∀ k ms, s.inputs.head? ≠ some (.porDuring k ms)) →
    decode s.cfg.toParams (.cw (packCw s.op s.a0 s.a1 s.a2 s.a3 s.a4)) = .ok i → step s = exec i s

/-- 30_encoding.md R105, 41_receiver.md R140: a wire command of another driver of the link, when it is the next move,
runs in the state that has used the move up; bytes that are none are rejected by name. That it comes as one input item
is the model's choice (log 11). -/
def Obligations.StepRunsWireCommand : Prop :=
  ∀ (s : State) (bytes : List Byte) (rest : List Input), s.busy = false → s.inputs = .wire bytes :: rest →
    (∀ i, decode s.cfg.toParams (.wire bytes) = .ok i →
      step s = exec i { s with inputs := rest, rspValid := false })
    ∧ (∀ e, decode s.cfg.toParams (.wire bytes) = .error e → step s = .refused (.undecodable e))

/-- 10_state.md R29, R52: a free port accepts the word offered, and that is all that happens. -/
def Obligations.FreePortAcceptsWord : Prop :=
  ∀ (s : State) (w : CommandWord) (rest : List Input), s.busy = false → s.inputs = .cmd w :: rest →
    step s = .next { s with
      op := w.extractLsb' 160 8, a0 := w.extractLsb' 128 32, a1 := w.extractLsb' 96 32,
      a2 := w.extractLsb' 64 32, a3 := w.extractLsb' 32 32, a4 := w.extractLsb' 0 32,
      busy := true, rspValid := false, inputs := rest }

/-- 10_state.md R29, R52, R22: while an operation is in progress the port accepts nothing; the operation ends in this
step and the latches, the parameters and the waiting word are as before. -/
def Obligations.BusyPortAcceptsNothing : Prop :=
  ∀ (s t : State) (w : CommandWord) (rest : List Input), s.busy = true → s.inputs = .cmd w :: rest →
    step s = .next t →
    t.inputs = s.inputs ∧ t.busy = false ∧ t.rspValid = true ∧ t.cfg = s.cfg ∧ t.op = s.op
      ∧ t.a0 = s.a0 ∧ t.a1 = s.a1 ∧ t.a2 = s.a2 ∧ t.a3 = s.a3 ∧ t.a4 = s.a4

/-- 60_exceptions.md R220: in every state every host operation, for every operand, completes and returns a response
(00_scope.md R16, 30_encoding.md R91), and the ENGINE's step is total: with an operation accepted the machine goes on, and
the port is free afterwards (10_state.md R29, R52; after an abandoning reset 70_reset_and_hazards.md R240). The latches stay
(10_state.md R21, R22). That parameters, inputs and `memEpoch` stand in State and stay, that an abandoning reset is one step, and
`rspValid` are the model's (logs 1, 4, 7, 9, 10). -/
def Obligations.EveryOperationResponds : Prop :=
  (∀ (s : State) (i : Instr), hostOperation i = true →
    ∃ t, exec i s = .next t ∧ t.busy = false ∧ t.rspValid = true ∧ t.cfg = s.cfg ∧ t.inputs = s.inputs
      ∧ t.op = s.op ∧ t.a0 = s.a0 ∧ t.a1 = s.a1 ∧ t.a2 = s.a2 ∧ t.a3 = s.a3 ∧ t.a4 = s.a4
      ∧ t.memEpoch = s.memEpoch ∧ (t.rsp = 0 ∨ t.rsp = 1 ∨ i = .pdGetw ∨ i = .pdGeth))
  ∧ ∀ s : State, s.busy = true → ∃ t, step s = .next t ∧ t.busy = false

/-! ### FrameBuffer operations -/

/-- 43_framebuffer.md R202: FB_INIT in Ready clears both buffers and sends the front buffer; elsewhere it is refused. -/
def Obligations.FbInitClearsAndPresents : Prop :=
  ∀ s : State,
    (s.pdState ≠ .ready → exec .fbInit s = .next (s.answered 0))
    ∧ (s.pdState = .ready → ∃ t, exec .fbInit s = .next t
      ∧ t = { s with mem := t.mem, cs := true, dc := true, rx := t.rx, trace := t.trace,
                     rsp := 1, busy := false, rspValid := true }
      ∧ (∀ b i, i < s.cfg.panelW * s.cfg.panelH →
          t.byteAt (bufBase s.cfg.toParams b + 2 * i) = hi8 s.cfg.defaultColor
          ∧ t.byteAt (bufBase s.cfg.toParams b + 2 * i + 1) = lo8 s.cfg.defaultColor)
      ∧ (∀ a, 2 * s.cfg.bufBytes ≤ a → t.byteAt a = s.byteAt a)
      ∧ t.trace = s.trace ++ (setWindow s.cfg.toParams 0 0 (s.effW - 1) (s.effH - 1)
          ++ btData (wirePixels s.cfg.defaultColor (s.cfg.panelW * s.cfg.panelH))))

/-- 43_framebuffer.md R203: FB_FILL writes every element of the back buffer and nothing else, in every driver state; it is
refused while a transfer in flight owns that buffer. -/
def Obligations.FbFillWritesBackBuffer : Prop :=
  ∀ (s : State) (color : Half), s.Inv →
    (s.owned = true → exec (.fbFill color) s = .next (s.answered 0))
    ∧ (s.owned = false → ∃ t, exec (.fbFill color) s = .next t
      ∧ t = { s with mem := t.mem, rsp := 1, busy := false, rspValid := true }
      ∧ (∀ i, i < s.effW.toNat * s.effH.toNat →
          t.byteAt (bufBase s.cfg.toParams s.back + 2 * i) = hi8 color
          ∧ t.byteAt (bufBase s.cfg.toParams s.back + 2 * i + 1) = lo8 color)
      ∧ (∀ a, (a < bufBase s.cfg.toParams s.back ∨ bufBase s.cfg.toParams s.back + s.cfg.bufBytes ≤ a) →
          t.byteAt a = s.byteAt a))

/-- 43_framebuffer.md R204: FB_SETPIXEL writes one element in bounds, and counts a drop out of bounds; it is refused while
a transfer in flight owns the back buffer. -/
def Obligations.FbSetpixelWritesOneElement : Prop :=
  ∀ (s : State) (x y : Word) (color : Half), s.Inv →
    (s.owned = true → exec (.fbSetpixel x y color) s = .next (s.answered 0))
    ∧ (s.owned = false → x.toNat < s.effW.toNat ∧ y.toNat < s.effH.toNat →
      ∃ t, exec (.fbSetpixel x y color) s = .next t
        ∧ t = { s with mem := t.mem, rsp := 1, busy := false, rspValid := true }
        ∧ ∀ a, t.byteAt a
            = if a = bufBase s.cfg.toParams s.back + 2 * (y.toNat * s.effW.toNat + x.toNat) then hi8 color
              else if a = bufBase s.cfg.toParams s.back + 2 * (y.toNat * s.effW.toNat + x.toNat) + 1 then lo8 color
              else s.byteAt a)
    ∧ (s.owned = false → s.effW.toNat ≤ x.toNat ∨ s.effH.toNat ≤ y.toNat →
        exec (.fbSetpixel x y color) s
          = .next { s with diagOob := if s.diagOob = 0xFFFFFFFF then s.diagOob else s.diagOob + 1,
                           rsp := 1, busy := false, rspValid := true })

/-- 43_framebuffer.md R205: FB_DRAWLINE writes the span up to the end of its row, counts a clamp, and drops a span that
starts outside; it is refused while a transfer in flight owns the back buffer. -/
def Obligations.FbDrawlineClampsToRow : Prop :=
  ∀ (s : State) (x y len : Word) (color : Half), s.Inv →
    (s.owned = true → exec (.fbDrawline x y len color) s = .next (s.answered 0))
    ∧ (s.owned = false → x.toNat < s.effW.toNat ∧ y.toNat < s.effH.toNat →
      ∃ t, exec (.fbDrawline x y len color) s = .next t
        ∧ t = { s with mem := t.mem, diagOob := t.diagOob, rsp := 1, busy := false, rspValid := true }
        ∧ t.diagOob = (if s.effW.toNat - x.toNat < len.toNat then satInc s.diagOob else s.diagOob)
        ∧ ∀ row col, row < s.effH.toNat → col < s.effW.toNat → ∀ a,
            a = bufBase s.cfg.toParams s.back + 2 * (row * s.effW.toNat + col) →
            (row = y.toNat ∧ x.toNat ≤ col ∧ col - x.toNat < len.toNat →
              t.byteAt a = hi8 color ∧ t.byteAt (a + 1) = lo8 color)
            ∧ (¬(row = y.toNat ∧ x.toNat ≤ col ∧ col - x.toNat < len.toNat) →
              t.byteAt a = s.byteAt a ∧ t.byteAt (a + 1) = s.byteAt (a + 1)))
    ∧ (∀ t, exec (.fbDrawline x y len color) s = .next t →
        ∀ a, (a < bufBase s.cfg.toParams s.back ∨ bufBase s.cfg.toParams s.back + s.cfg.bufBytes ≤ a) →
          t.byteAt a = s.byteAt a)
    ∧ (s.owned = false → s.effW.toNat ≤ x.toNat ∨ s.effH.toNat ≤ y.toNat →
        exec (.fbDrawline x y len color) s
          = .next { s with diagOob := satInc s.diagOob, rsp := 1, busy := false, rspValid := true })

/-- 43_framebuffer.md R206: FB_SWAP exchanges the role tags and does nothing else, in every state; twice restores them. -/
def Obligations.FbSwapExchangesTags : Prop :=
  ∀ s : State, ∃ t, exec .fbSwap s = .next t
    ∧ t = { s with front := s.back, rsp := 1, busy := false, rspValid := true }
    ∧ t.front ≠ s.front ∧ t.back = s.front ∧ (∀ a, t.byteAt a = s.byteAt a)
    ∧ ∃ u, exec .fbSwap t = .next u ∧ u.front = s.front ∧ u.back = s.back ∧ u.mem = s.mem ∧ u.trace = s.trace

/-- 43_framebuffer.md R207: FB_PRESENT in Ready sends the full-screen window and the front buffer's bytes as they lie;
elsewhere it is refused. -/
def Obligations.FbPresentSendsFrontBuffer : Prop :=
  ∀ s : State, s.Inv →
    (s.pdState ≠ .ready → exec .fbPresent s = .next (s.answered 0))
    ∧ (s.pdState = .ready → ∃ (t : State) (bs : List Byte), exec .fbPresent s = .next t
      ∧ t = { s with cs := true, dc := true, rx := t.rx, trace := t.trace, rsp := 1, busy := false, rspValid := true }
      ∧ t.trace = s.trace ++ (setWindow s.cfg.toParams 0 0 (s.effW - 1) (s.effH - 1) ++ btData bs)
      ∧ bs.length = s.effW.toNat * s.effH.toNat * 2
      ∧ ∀ k, k < bs.length → bs[k]? = some (s.byteAt (bufBase s.cfg.toParams s.front + k)))

/-- 43_framebuffer.md R201: while the range of a transfer in flight overlaps the back buffer the drawing operations change
nothing but the response, 0; otherwise they are performed and answer 1; FB_SWAP is never refused. -/
def Obligations.OwnedBufferIsNotDrawn : Prop :=
  ∀ s : State, s.Inv →
    (∀ i, drawsBack i = true →
      (s.xfer = .inFlight ∧ bufBase s.cfg.toParams s.back < s.dma.base.toNat + s.dma.len.toNat
          ∧ s.dma.base.toNat < bufBase s.cfg.toParams s.back + s.cfg.bufBytes →
        exec i s = .next (s.answered 0))
      ∧ (¬(s.xfer = .inFlight ∧ bufBase s.cfg.toParams s.back < s.dma.base.toNat + s.dma.len.toNat
          ∧ s.dma.base.toNat < bufBase s.cfg.toParams s.back + s.cfg.bufBytes) →
        ∃ t, exec i s = .next t ∧ t.rsp = 1))
    ∧ ∃ t, exec .fbSwap s = .next t ∧ t.rsp = 1

/-! ### Panel Driver operations -/

/-- 42_panel_driver.md R172: PD_INIT from Uninitialized with a valid handle plays the reset pulse, the init table, the
default rotation and display-on; in any other state, or with an invalid handle, it is refused. -/
def Obligations.PdInitBringsUpPanel : Prop :=
  ∀ (s : State) (h : Word),
    (s.pdState ≠ .uninitialized ∨ handleValid s.cfg.toParams h = false → exec (.pdInit h) s = .next (s.answered 0))
    ∧ (s.pdState = .uninitialized → handleValid s.cfg.toParams h = true → ∃ t, exec (.pdInit h) s = .next t
      ∧ t = { s with pdState := .ready, seqIdx := t.seqIdx, rot := s.cfg.defaultRotation,
                     orient := orientByte s.cfg.toParams s.cfg.defaultRotation,
                     effW := rotW s.cfg.toParams s.cfg.defaultRotation,
                     effH := rotH s.cfg.toParams s.cfg.defaultRotation,
                     cs := true, dc := false, rst := true, rx := t.rx, trace := t.trace,
                     rsp := 1, busy := false, rspValid := true }
      ∧ (s.cfg.initTable = [] → t.seqIdx = s.seqIdx)
      ∧ (s.cfg.initTable ≠ [] → t.seqIdx.toNat + 1 = s.cfg.initTable.length)
      ∧ t.trace = s.trace ++ (([.rst false, .wait s.cfg.tRstHold, .rst true, .wait s.cfg.tRstSettle] : List Event)
          ++ s.cfg.initTable.flatMap (fun e => btCmd e.cmd ++ (if e.params = [] then [] else btData e.params)
              ++ e.delay.toList.map (fun d => Event.wait d.toNat))
          ++ (btCmd s.cfg.opOrient ++ btData [orientByte s.cfg.toParams s.cfg.defaultRotation])
          ++ (btCmd s.cfg.opDispon ++ ([.wait s.cfg.tDispon] : List Event))))

/-- 42_panel_driver.md R173, R174: PD_SETROT in Ready sets rotation, geometry and orientation byte and sends the
orientation command; elsewhere it is refused. -/
def Obligations.PdSetrotSetsGeometry : Prop :=
  ∀ (s : State) (r : BitVec 2),
    (s.pdState ≠ .ready → exec (.pdSetrot r) s = .next (s.answered 0))
    ∧ (s.pdState = .ready → ∃ t, exec (.pdSetrot r) s = .next t
      ∧ t = { s with rot := r, orient := t.orient, effW := t.effW, effH := t.effH, cs := true, dc := true,
                     rx := t.rx, trace := t.trace, rsp := 1, busy := false, rspValid := true }
      ∧ t.orient = orientEntry s.cfg.orientTable r ||| s.cfg.colorOrderBit
      ∧ (r = 1 ∨ r = 3 → t.effW.toNat = s.cfg.panelH ∧ t.effH.toNat = s.cfg.panelW)
      ∧ (r = 0 ∨ r = 2 → t.effW.toNat = s.cfg.panelW ∧ t.effH.toNat = s.cfg.panelH)
      ∧ t.trace = s.trace ++ ([.cs false, .dc false, .tx s.cfg.opOrient, .cs true,
                              .cs false, .dc true, .tx t.orient, .cs true] : List Event))

/-- 42_panel_driver.md R184: PD_SETROT twice is PD_SETROT once, but for a second copy of its events, in every state that
is Ready, whatever RX has been through. -/
def Obligations.PdSetrotIdempotent : Prop :=
  ∀ (s t u : State) (r : BitVec 2), s.pdState = .ready →
    exec (.pdSetrot r) s = .next t → exec (.pdSetrot r) t = .next u →
    u = { t with trace := u.trace } ∧ u.trace = t.trace ++ t.trace.drop s.trace.length

/-- 42_panel_driver.md R175, R176: PD_SETWIN in Ready sends its coordinates as they are, five brackets and eleven bytes;
RX, out of reset, then holds the window and stands at its first cell in memory-write mode, and has marked a window that
is not valid (41_receiver.md R158). Elsewhere PD_SETWIN is refused. -/
def Obligations.PdSetwinSendsElevenBytes : Prop :=
  ∀ (s : State) (x0 y0 x1 y1 : Half),
    (s.pdState ≠ .ready → exec (.pdSetwin x0 y0 x1 y1) s = .next (s.answered 0))
    ∧ (s.pdState = .ready → ∃ t, exec (.pdSetwin x0 y0 x1 y1) s = .next t
      ∧ t = { s with cs := true, dc := false, rx := t.rx, trace := t.trace, rsp := 1, busy := false, rspValid := true }
      ∧ t.trace = s.trace ++
          ([.cs false, .dc false, .tx s.cfg.opColrange, .cs true,
           .cs false, .dc true, .tx (hi8 x0), .tx (lo8 x0), .tx (hi8 x1), .tx (lo8 x1), .cs true,
           .cs false, .dc false, .tx s.cfg.opRowrange, .cs true,
           .cs false, .dc true, .tx (hi8 y0), .tx (lo8 y0), .tx (hi8 y1), .tx (lo8 y1), .cs true,
           .cs false, .dc false, .tx s.cfg.opMemwrite, .cs true] : List Event)
      ∧ (s.rx.rst = true →
          t.rx.memwr = true ∧ t.rx.col = x0 ∧ t.rx.row = y0
          ∧ t.rx.xs = x0 ∧ t.rx.xe = x1 ∧ t.rx.ys = y0 ∧ t.rx.ye = y1
          ∧ (windowValid s.cfg.toParams t.rx = false → t.rx.viol.window = true)))

/-- 42_panel_driver.md R177, 30_encoding.md R111: PD_WRDATA and its alias in Ready: a range inside engine memory is
streamed in one data bracket, one that leaves it is refused; elsewhere they are refused. -/
def Obligations.PdWrdataStreamsRange : Prop :=
  ∀ (s : State) (addr len : Word) (i : Instr), (i = .pdWrdata addr len ∨ i = .pdWrpixels addr len) →
    (s.pdState ≠ .ready ∨ s.cfg.memBytes < len.toNat ∨ s.cfg.memBytes - len.toNat < addr.toNat →
      exec i s = .next (s.answered 0))
    ∧ (s.pdState = .ready ∧ len.toNat ≤ s.cfg.memBytes ∧ addr.toNat ≤ s.cfg.memBytes - len.toNat →
      ∃ (t : State) (bs : List Byte), exec i s = .next t
        ∧ t = { s with cs := true, dc := true, rx := t.rx, trace := t.trace, rsp := 1, busy := false, rspValid := true }
        ∧ t.trace = s.trace ++ (([.cs false, .dc true] : List Event) ++ bs.map Event.tx ++ ([.cs true] : List Event))
        ∧ bs.length = len.toNat ∧ ∀ k, k < len.toNat → bs[k]? = some (s.byteAt (addr.toNat + k)))

/-- 42_panel_driver.md R178: PD_FILLRECT in Ready of a rectangle that starts inside and has no zero side: the window
and the pixels of the clamped rectangle; one pixel a bracket up to 32 pixels, batches above. Any other rectangle is
dropped and counted; outside Ready the operation is refused. -/
def Obligations.PdFillrectFillsClampedRectangle : Prop :=
  ∀ (s : State) (x y w h : Word) (color : Half),
    (s.pdState ≠ .ready → exec (.pdFillrect x y w h color) s = .next (s.answered 0))
    ∧ (s.pdState = .ready → s.effW.toNat ≤ x.toNat ∨ s.effH.toNat ≤ y.toNat ∨ w = 0 ∨ h = 0 →
      exec (.pdFillrect x y w h color) s
        = .next { s with diagOob := satInc s.diagOob, rsp := 1, busy := false, rspValid := true })
    ∧ (s.pdState = .ready → x.toNat < s.effW.toNat → y.toNat < s.effH.toNat → w ≠ 0 → h ≠ 0 →
    let w' := min w.toNat (s.effW.toNat - x.toNat)
    let h' := min h.toNat (s.effH.toNat - y.toNat)
    let n := w' * h'
    ∃ (t : State) (evs : List Event), exec (.pdFillrect x y w h color) s = .next t
      ∧ t = { s with cs := true, dc := true, diagOob := t.diagOob, rx := t.rx, trace := t.trace,
                     rsp := 1, busy := false, rspValid := true }
      ∧ t.diagOob = (if w' ≠ w.toNat ∨ h' ≠ h.toNat then satInc s.diagOob else s.diagOob)
      ∧ t.trace = s.trace ++ (setWindow s.cfg.toParams (x.setWidth 16) (y.setWidth 16)
          (BitVec.ofNat 16 (x.toNat + w' - 1)) (BitVec.ofNat 16 (y.toNat + h' - 1)) ++ evs)
      ∧ (n ≤ 32 → evs = (List.replicate n (btData [hi8 color, lo8 color])).flatten)
      ∧ (32 < n → ∃ ks : List Nat, evs = ks.flatMap (fun k => btData (wirePixels color k)) ∧ ks.sum = n
          ∧ (∀ k ∈ ks.dropLast, k = s.cfg.fillBatchPixels)
          ∧ (∀ k ∈ ks, 1 ≤ k ∧ k ≤ s.cfg.fillBatchPixels)))

/-- 42_panel_driver.md R179: PD_DRAWPIXEL in Ready of a pixel inside: a one-cell window and its two bytes, six brackets
and thirteen bytes; a pixel outside is dropped and counted; outside Ready the operation is refused. -/
def Obligations.PdDrawpixelSendsOnePixel : Prop :=
  ∀ (s : State) (x y : Word) (color : Half),
    (s.pdState ≠ .ready → exec (.pdDrawpixel x y color) s = .next (s.answered 0))
    ∧ (s.pdState = .ready → s.effW.toNat ≤ x.toNat ∨ s.effH.toNat ≤ y.toNat →
      exec (.pdDrawpixel x y color) s
        = .next { s with diagOob := satInc s.diagOob, rsp := 1, busy := false, rspValid := true })
    ∧ (s.pdState = .ready → x.toNat < s.effW.toNat → y.toNat < s.effH.toNat → ∃ t, exec (.pdDrawpixel x y color) s = .next t
      ∧ t = { s with cs := true, dc := true, rx := t.rx, trace := t.trace, rsp := 1, busy := false, rspValid := true }
      ∧ t.trace = s.trace
          ++ (setWindow s.cfg.toParams (x.setWidth 16) (y.setWidth 16) (x.setWidth 16) (y.setWidth 16)
          ++ ([.cs false, .dc true, .tx (hi8 color), .tx (lo8 color), .cs true] : List Event))
      ∧ (txBytes (t.trace.drop s.trace.length)).length = 13 ∧ bracketsOpened (t.trace.drop s.trace.length) = 6)

/-- 42_panel_driver.md R180, 40_bus_transport.md R123: PD_SENDDMA: with a transfer in flight, or outside Ready, it answers
0; in Ready it starts a transfer of one full screen from a range inside engine memory, and refuses one that leaves it. -/
def Obligations.PdSenddmaStartsTransfer : Prop :=
  ∀ (s : State) (addr : Word), s.Inv →
    (s.xfer = .inFlight ∨ s.pdState ≠ .ready → exec (.pdSenddma addr) s = .next (s.answered 0))
    ∧ (s.pdState = .ready → s.cfg.memBytes - s.effW.toNat * s.effH.toNat * 2 < addr.toNat →
        exec (.pdSenddma addr) s = .next (s.answered 0))
    ∧ (s.pdState = .ready → addr.toNat ≤ s.cfg.memBytes - s.effW.toNat * s.effH.toNat * 2 →
        ∃ t, exec (.pdSenddma addr) s = .next t
          ∧ t = { s with xfer := .inFlight, pdState := .busy, cs := false, dc := true, dma := t.dma, rx := t.rx,
                         trace := t.trace, rsp := 1, busy := false, rspValid := true }
          ∧ t.dma.active = true ∧ t.dma.done = false ∧ t.dma.base = addr ∧ t.dma.ptr = addr
          ∧ t.dma.len.toNat = s.effW.toNat * s.effH.toNat * 2 ∧ t.dma.rem = t.dma.len
          ∧ t.trace = s.trace
              ++ (setWindow s.cfg.toParams 0 0 (s.effW - 1) (s.effH - 1) ++ ([.cs false, .dc true] : List Event)))

/-- 42_panel_driver.md R181, 40_bus_transport.md R124: PD_DMADONE: 1 when Idle; 0 while bytes are left; 1 when it
observes completion, which closes the bracket and frees the driver. -/
def Obligations.PdDmadoneObservesCompletion : Prop :=
  ∀ s : State, s.Inv →
    (s.xfer = .idle → exec .pdDmadone s = .next (s.answered 1))
    ∧ (s.xfer = .inFlight → s.dma.rem ≠ 0 → exec .pdDmadone s = .next (s.answered 0))
    ∧ (s.xfer = .inFlight → s.dma.rem = 0 →
        ∃ t, exec .pdDmadone s = .next t
          ∧ t = { s with xfer := .idle, pdState := .ready, cs := true, dma := { s.dma with active := false },
                         rx := { s.rx with cs := true }, trace := s.trace ++ ([.cs true] : List Event),
                         rsp := 1, busy := false, rspValid := true })

/-- 42_panel_driver.md R182, R183: the getters answer the effective sizes, zero-extended, in every state. -/
def Obligations.GettersAnswerGeometry : Prop :=
  ∀ s : State, ∃ v w : Word,
    exec .pdGetw s = .next (s.answered v) ∧ v.toNat = s.effW.toNat
    ∧ exec .pdGeth s = .next (s.answered w) ∧ w.toNat = s.effH.toNat

/-- 42_panel_driver.md R171, 60_exceptions.md R221 F4: outside Ready the operations that use the link are refused: no
wire event, no change but the response, 0. -/
def Obligations.LinkOperationsNeedReady : Prop :=
  ∀ (s : State) (i : Instr), needsReady i = true → s.pdState ≠ .ready → exec i s = .next (s.answered 0)

/-- 42_panel_driver.md R170: the driver state's transitions by host operations are all there are. That PD_DMADONE leaves
Busy is said of the states of the invariant: only there is Busy the state of a transfer in flight (10_state.md R37 (a)). -/
def Obligations.DriverTransitions : Prop :=
  ∀ (s t : State) (i : Instr), exec i s = .next t → t.pdState ≠ s.pdState →
    (s.pdState = .uninitialized ∧ t.pdState = .ready ∧ ∃ h, i = .pdInit h ∧ handleValid s.cfg.toParams h = true)
    ∨ (s.pdState = .ready ∧ t.pdState = .busy ∧ (∃ a, i = .pdSenddma a) ∧ t.rsp = 1)
    ∨ ((s.Inv → s.pdState = .busy) ∧ t.pdState = .ready
        ∧ i = .pdDmadone ∧ s.xfer = .inFlight ∧ t.xfer = .idle ∧ t.rsp = 1)

/-- 10_state.md R34, 60_exceptions.md R231, R222: the diagnostic counter moves by at most one saturating increment, in
the four operations that drop or clamp, and only when they answer 1. -/
def Obligations.OnlyDropsAndClampsCount : Prop :=
  ∀ (s t : State) (i : Instr), exec i s = .next t → t.diagOob ≠ s.diagOob →
    t.diagOob = s.diagOob + 1 ∧ s.diagOob ≠ 0xFFFFFFFF ∧ t.rsp = 1
    ∧ ((∃ x y c, i = .fbSetpixel x y c) ∨ (∃ x y l c, i = .fbDrawline x y l c)
      ∨ (∃ x y w h c, i = .pdFillrect x y w h c) ∨ (∃ x y c, i = .pdDrawpixel x y c))

/-- 10_state.md R32, 20_memory.md R64: only the FB drawing operations and FB_INIT write engine memory, and drawing
stays in the back buffer. -/
def Obligations.OnlyDrawingWritesMemory : Prop :=
  ∀ (s t : State) (i : Instr) (a : Nat), s.Inv → exec i s = .next t → t.byteAt a ≠ s.byteAt a →
    (i = .fbInit ∧ a < 2 * s.cfg.bufBytes)
    ∨ (drawsBack i = true ∧ bufBase s.cfg.toParams s.back ≤ a
        ∧ a < bufBase s.cfg.toParams s.back + s.cfg.bufBytes)

/-! ### DMA -/

/-- 40_bus_transport.md R125, 20_memory.md R76: DMA's turn with a transfer in flight and bytes left sends one byte, the
one engine memory holds at this moment, and RX takes it; with none left it does nothing. That the turn is an input item,
which is used up, and lowers `rspValid` is the model's choice (logs 6, 7, 10). -/
def Obligations.DmaTurnSendsOneByte : Prop :=
  ∀ (s : State) (rest : List Input), s.Inv → s.busy = false → s.inputs = .dmaStep :: rest →
    (s.dma.active = true → s.dma.rem ≠ 0 →
      ∃ t, step s = .next t
        ∧ t = { s with dma := t.dma, rx := t.rx, trace := s.trace ++ ([.tx (s.byteAt s.dma.ptr.toNat)] : List Event),
                       rspValid := false, inputs := rest }
        ∧ t.rx = Rx.event s.cfg.toParams s.rx (.tx (s.byteAt s.dma.ptr.toNat))
        ∧ t.dma = { s.dma with ptr := s.dma.ptr + 1, rem := s.dma.rem - 1, done := decide (s.dma.rem = 1) })
    ∧ (s.dma.active = false ∨ s.dma.rem = 0 → step s = .next { s with rspValid := false, inputs := rest })

/-- 40_bus_transport.md R125, 20_memory.md R78, 70_reset_and_hazards.md R258: given its turns, DMA sends the rest of the
transfer in ascending address order, RX takes every byte (R76), and the transfer completes. -/
def Obligations.DmaTurnsCompleteTransfer : Prop :=
  ∀ (n : Nat) (s : State) (rest : List Input), s.Inv → s.busy = false → s.xfer = .inFlight →
    n ≤ s.dma.rem.toNat → s.inputs = List.replicate n .dmaStep ++ rest →
    ∃ t, Host.Core.run Sys2Proof.core n s = .next t
      ∧ t.trace = s.trace ++ (s.bytesAt s.dma.ptr.toNat n).map Event.tx
      ∧ t.rx = Rx.events s.cfg.toParams s.rx ((s.bytesAt s.dma.ptr.toNat n).map Event.tx)
      ∧ t.dma.rem.toNat = s.dma.rem.toNat - n ∧ (t.dma.done = true ↔ n = s.dma.rem.toNat)
      ∧ t.xfer = .inFlight ∧ t.inputs = rest ∧ ∀ a, t.byteAt a = s.byteAt a

/-- 20_memory.md R78, 43_framebuffer.md R201, 70_reset_and_hazards.md R246: as long as a transfer is in flight no step,
of whatever agent, changes a byte of its range. -/
def Obligations.TransferRangeIsUntouched : Prop :=
  ∀ (s t : State) (a : Nat), s.Inv → step s = .next t → s.xfer = .inFlight → t.xfer = .inFlight →
    s.dma.base.toNat ≤ a → a < s.dma.base.toNat + s.dma.len.toNat →
    t.byteAt a = s.byteAt a ∧ t.dma.base = s.dma.base ∧ t.dma.len = s.dma.len

/-! ### The link -/

/-- 40_bus_transport.md R120, R128, R130: every step keeps the trace a sequence of whole items, but for the open data
bracket of a transfer in flight. -/
def Obligations.TraceKeepsItsShape : Prop :=
  ∀ s t : State, s.Inv → s.traceShaped → step s = .next t → t.traceShaped

/-- 41_receiver.md R140, 20_memory.md R76: a host operation adds events to the trace and changes RX by exactly those
events; a wire command changes RX alone. -/
def Obligations.ReceiverFollowsTrace : Prop :=
  ∀ (s t : State) (i : Instr), exec i s = .next t →
    (hostOperation i = true →
      ∃ es, t.trace = s.trace ++ es ∧ t.rx = Rx.events s.cfg.toParams s.rx es
        ∧ t.cs = es.foldl csAfter s.cs ∧ t.dc = es.foldl dcAfter s.dc ∧ t.rst = es.foldl rstAfter s.rst)
    ∧ (hostOperation i = false → t = { s with rx := t.rx })

/-- 41_receiver.md R160: moves of the block that keep the caller's contracts set no violation flag, in a parameter set
whose init table holds vendor commands only. -/
def Obligations.BlockSetsNoViolation : Prop :=
  ∀ s t : State, s.Inv → s.LinkClean → vendorTable s.cfg.toParams → s.blockMoves →
    (s.busy = true → contractKept s s.latchedInstr) → step s = .next t → t.LinkClean

/-- 43_framebuffer.md R204, R206, R207, R208 (the source's first testable property): draw a pixel, swap, present: the
presented stream holds the pixel's wire bytes at `2 * (y * width + x)` and the back buffer's bytes elsewhere. -/
def Obligations.SetpixelSwapPresent : Prop :=
  ∀ (s : State) (x y : Word) (color : Half), s.Inv → s.pdState = .ready →
    x.toNat < s.effW.toNat → y.toNat < s.effH.toNat →
    ∃ (t u v : State) (bs : List Byte),
      exec (.fbSetpixel x y color) s = .next t ∧ exec .fbSwap t = .next u ∧ exec .fbPresent u = .next v
      ∧ v.trace = s.trace ++ (setWindow s.cfg.toParams 0 0 (s.effW - 1) (s.effH - 1) ++ btData bs)
      ∧ bs.length = s.cfg.bufBytes
      ∧ ∀ k, k < bs.length →
          bs[k]? = some (if k = 2 * (y.toNat * s.effW.toNat + x.toNat) then hi8 color
                         else if k = 2 * (y.toNat * s.effW.toNat + x.toNat) + 1 then lo8 color
                         else s.byteAt (bufBase s.cfg.toParams s.back + k))

/-- 43_framebuffer.md R207, 41_receiver.md R155, R157: after FB_PRESENT every panel cell holds the front buffer's pixel of
the logical position that the rotation maps to it. -/
def Obligations.PresentPaintsWholePanel : Prop :=
  ∀ s t : State, s.Inv → s.LinkClean → s.pdState = .ready → exec .fbPresent s = .next t →
    ∀ x y, x < s.effW.toNat → y < s.effH.toNat →
      ∃ pc pr, panelMap s.cfg.toParams s.orient x y = some (pc, pr)
        ∧ t.rx.cell pc pr
            = some (pixelOf (s.byteAt (bufBase s.cfg.toParams s.front + 2 * (y * s.effW.toNat + x)))
                (s.byteAt (bufBase s.cfg.toParams s.front + 2 * (y * s.effW.toNat + x) + 1)))

/-- 42_panel_driver.md R179, 41_receiver.md R155, R157: PD_DRAWPIXEL of a pixel inside changes the one panel cell that the
rotation maps its position to, and no other. -/
def Obligations.DrawpixelPaintsOneCell : Prop :=
  ∀ (s t : State) (x y : Word) (color : Half), s.Inv → s.LinkClean → s.pdState = .ready →
    x.toNat < s.effW.toNat → y.toNat < s.effH.toNat → exec (.pdDrawpixel x y color) s = .next t →
    ∃ pc pr, panelMap s.cfg.toParams s.orient x.toNat y.toNat = some (pc, pr)
      ∧ t.rx.cell pc pr = some color ∧ ∀ c r, (c, r) ≠ (pc, pr) → t.rx.cell c r = s.rx.cell c r

/-- 41_receiver.md R140: RX has no outputs to the ENGINE: two states that differ in RX alone step to states that differ in
RX alone. -/
def Obligations.ReceiverDoesNotReachEngine : Prop :=
  ∀ (s t : State) (r : Rx), step s = .next t → ∃ r', step { s with rx := r } = .next { t with rx := r' }

/-! ### RX -/

/-- 41_receiver.md R141, R145, 30_encoding.md R104: a data stream may be cut into brackets at any byte boundary. -/
def Obligations.StreamCutsAreInvisible : Prop :=
  ∀ (c : Config) (r : Rx) (xs ys : List Byte),
    Rx.events c.toParams r (btData xs ++ btData ys) = Rx.events c.toParams r (btData (xs ++ ys))

/-- 41_receiver.md R159: the reset line and the waits. -/
def Obligations.ReceiverResetTiming : Prop :=
  ∀ (c : Config) (r : Rx) (ms : Nat),
    (r.rst = true → Rx.event c.toParams r (.rst false)
      = { Rx.powerOn c.toParams with
          cs := r.cs, dc := r.dc, rst := false, settleMs := r.settleMs, viol := r.viol, vendorLog := r.vendorLog })
    ∧ (r.rst = false → Rx.event c.toParams r (.rst false) = r)
    ∧ (r.rst = true → Rx.event c.toParams r (.rst true) = r)
    ∧ (r.rst = false → Rx.event c.toParams r (.rst true)
        = { r with rst := true, settleMs := 0,
                   viol := { r.viol with rstPulse := r.viol.rstPulse || decide (r.holdMs < 10) } })
    ∧ Rx.event c.toParams r (.wait ms)
        = { r with holdMs := if r.rst then r.holdMs else r.holdMs + ms,
                   settleMs := if r.rst then r.settleMs + ms else r.settleMs }

/-- 41_receiver.md R155: the pixel write and the pointer's advance. -/
def Obligations.PixelWriteAndAdvance : Prop :=
  ∀ (c : Config) (r : Rx) (px : Half), Gram.wf c.toParams r.gram = true →
    let t := Rx.pixel c.toParams r px
    t = { r with gram := t.gram, viol := t.viol, col := t.col, row := t.row }
    ∧ (∀ pc pr, panelMap c.toParams r.orient r.col.toNat r.row.toNat = some (pc, pr) →
        t.viol = r.viol ∧ t.cell pc pr = some px ∧ ∀ x y, (x, y) ≠ (pc, pr) → t.cell x y = r.cell x y)
    ∧ (panelMap c.toParams r.orient r.col.toNat r.row.toNat = none →
        t.gram = r.gram ∧ t.viol = { r.viol with window := true })
    ∧ (r.col ≠ r.xe → t.col = r.col + 1 ∧ t.row = r.row)
    ∧ (r.col = r.xe ∧ r.row ≠ r.ye → t.col = r.xs ∧ t.row = r.row + 1)
    ∧ (r.col = r.xe ∧ r.row = r.ye → t.col = r.xs ∧ t.row = r.ys)
    ∧ (r.pointerInside c.toParams →
        t.pointerInside c.toParams ∧ (panelMap c.toParams r.orient r.col.toNat r.row.toNat).isSome = true)

/-- 41_receiver.md R157, R156: the rotation mapping is a bijection from the effective geometry onto the panel, exchange
first, then column order, then row order. -/
def Obligations.RotationMapIsBijection : Prop :=
  ∀ (c : Config) (o : Byte),
    (∀ x y, x < rxW c.toParams o → y < rxH c.toParams o →
      ∃ pc pr, pc < c.panelW ∧ pr < c.panelH ∧ panelMap c.toParams o x y = some (pc, pr)
        ∧ (o &&& c.maskEx = 0 →
            (pc : Int) = (if o &&& c.maskCo ≠ 0 then (c.panelW : Int) - 1 - x else x)
            ∧ (pr : Int) = (if o &&& c.maskRo ≠ 0 then (c.panelH : Int) - 1 - y else y))
        ∧ (o &&& c.maskEx ≠ 0 →
            (pc : Int) = (if o &&& c.maskCo ≠ 0 then (c.panelW : Int) - 1 - y else y)
            ∧ (pr : Int) = (if o &&& c.maskRo ≠ 0 then (c.panelH : Int) - 1 - x else x)))
    ∧ (∀ pc pr, pc < c.panelW → pr < c.panelH →
        ∃ x y, x < rxW c.toParams o ∧ y < rxH c.toParams o ∧ panelMap c.toParams o x y = some (pc, pr)
          ∧ ∀ x' y', panelMap c.toParams o x' y' = some (pc, pr) → x' = x ∧ y' = y)
    ∧ (∀ x y, rxW c.toParams o ≤ x ∨ rxH c.toParams o ≤ y → panelMap c.toParams o x y = none)

/-! ### Wire commands -/

/-- 41_receiver.md R144, R146, R147, R153: column-range with any number of data bytes. That a wire command as an
instruction is sent in its own brackets, by another driver of the link, and changes RX alone is the model's (log 11). -/
def Obligations.ColumnRangeSetsColumns : Prop :=
  ∀ (s : State) (data : List Byte), s.rx.rst = true →
    exec (.columnRange data) s = .next { s with rx := { s.rx with
      cs := true, dc := !data.isEmpty, cmd := some s.cfg.opColrange, pidx := data.length, memwr := false, half := none,
      xs := data[0]?.getD (hi8 s.rx.xs) ++ data[1]?.getD (lo8 s.rx.xs),
      xe := data[2]?.getD (hi8 s.rx.xe) ++ data[3]?.getD (lo8 s.rx.xe),
      viol := { s.rx.viol with half := s.rx.viol.half || s.rx.half.isSome,
                               settle := s.rx.viol.settle || decide (s.rx.settleMs < 100) } } }

/-- 41_receiver.md R144, R146, R148, R153: row-range with any number of data bytes. That a wire command as an
instruction is sent in its own brackets, by another driver of the link, and changes RX alone is the model's (log 11). -/
def Obligations.RowRangeSetsRows : Prop :=
  ∀ (s : State) (data : List Byte), s.rx.rst = true →
    exec (.rowRange data) s = .next { s with rx := { s.rx with
      cs := true, dc := !data.isEmpty, cmd := some s.cfg.opRowrange, pidx := data.length, memwr := false, half := none,
      ys := data[0]?.getD (hi8 s.rx.ys) ++ data[1]?.getD (lo8 s.rx.ys),
      ye := data[2]?.getD (hi8 s.rx.ye) ++ data[3]?.getD (lo8 s.rx.ye),
      viol := { s.rx.viol with half := s.rx.viol.half || s.rx.half.isSome,
                               settle := s.rx.viol.settle || decide (s.rx.settleMs < 100) } } }

/-- 41_receiver.md R144, R146, R149, R150, R153: orientation and display-on with any number of data bytes.
That a wire command as an instruction is sent in its own brackets, by another driver of the link, and changes RX alone
is the model's (log 11). -/
def Obligations.OrientationAndDisplayOn : Prop :=
  ∀ (s : State) (data : List Byte), s.rx.rst = true →
    exec (.orientation data) s = .next { s with rx := { s.rx with
      cs := true, dc := !data.isEmpty, cmd := some s.cfg.opOrient, pidx := data.length, memwr := false, half := none,
      orient := data[0]?.getD s.rx.orient,
      viol := { s.rx.viol with half := s.rx.viol.half || s.rx.half.isSome,
                               settle := s.rx.viol.settle || decide (s.rx.settleMs < 100) } } }
    ∧ exec (.displayOn data) s = .next { s with rx := { s.rx with
      cs := true, dc := !data.isEmpty, cmd := some s.cfg.opDispon, pidx := data.length, memwr := false, half := none,
      dispOn := true,
      viol := { s.rx.viol with half := s.rx.viol.half || s.rx.half.isSome,
                               settle := s.rx.viol.settle || decide (s.rx.settleMs < 100) } } }

/-- 41_receiver.md R144, R146, R152, R153: a vendor command is logged with its data bytes and has no other effect.
That a wire command as an instruction is sent in its own brackets, by another driver of the link, and changes RX alone
is the model's (log 11). -/
def Obligations.VendorCommandIsLogged : Prop :=
  ∀ (s : State) (cmd : Byte) (data : List Byte), s.rx.rst = true → cmd ∉ s.cfg.namedCommands →
    exec (.vendor cmd data) s = .next { s with rx := { s.rx with
      cs := true, dc := !data.isEmpty, cmd := some cmd, pidx := data.length, memwr := false, half := none,
      vendorLog := s.rx.vendorLog ++ [cmd :: data],
      viol := { s.rx.viol with half := s.rx.viol.half || s.rx.half.isSome,
                               settle := s.rx.viol.settle || decide (s.rx.settleMs < 100) } } }

/-- 41_receiver.md R144, R146, R151, R154, R155: begin memory write: memory-write mode from the window's first cell,
V_WINDOW for an invalid window; then each two data bytes, the first the more significant, are one pixel, and RX takes the
pixels one after the other; an odd last byte is left as half a pixel. That a wire command as an instruction is sent in its
own brackets, by another driver of the link, and changes RX alone is the model's (log 11). -/
def Obligations.BeginMemoryWriteStartsStream : Prop :=
  ∀ (s : State) (data : List Byte), s.rx.rst = true →
    let begun : Rx := { s.rx with
      cs := true, dc := false, cmd := some s.cfg.opMemwrite, pidx := 0, memwr := true, half := none,
      col := s.rx.xs, row := s.rx.ys,
      viol := { s.rx.viol with half := s.rx.viol.half || s.rx.half.isSome,
                               settle := s.rx.viol.settle || decide (s.rx.settleMs < 100),
                               window := s.rx.viol.window || !windowValid s.cfg.toParams s.rx } }
    exec (.beginMemoryWrite []) s = .next { s with rx := begun }
    ∧ exec (.beginMemoryWrite data) s = .next { s with rx :=
        { (wholePixels data).foldl (Rx.pixel s.cfg.toParams) begun with
          dc := !data.isEmpty, half := if data.length % 2 = 1 then data.getLast? else none } }

/-- 41_receiver.md R142, R143: a byte while deselected, or while the reset line is low, does nothing; so a wire command
in reset changes nothing in RX but the levels it saw. That a wire command as an instruction ends with chip-select high
and changes RX alone is the model's (log 11). -/
def Obligations.GatedBytesDoNothing : Prop :=
  (∀ (c : Config) (r : Rx) (b : Byte), r.cs = true ∨ r.rst = false → Rx.event c.toParams r (.tx b) = r)
  ∧ ∀ (s : State) (i : Instr), hostOperation i = false → s.rx.rst = false →
    ∃ t, exec i s = .next t ∧ t = { s with rx := { s.rx with cs := true, dc := t.rx.dc } }
end

