-- ==== Sys2Proof/Laws/Decode.lean ====
section
/-! SUPPORT. The fields of a packed command word, and what the decoders answer for each command byte. -/

namespace Sys2Proof

/-! ### The fields of a packed word (30_encoding.md R90) -/

@[simp] theorem cwOp_packCw (op : Byte) (a0 a1 a2 a3 a4 : Word) : cwOp (packCw op a0 a1 a2 a3 a4) = op := by
  apply BitVec.eq_of_getLsbD_eq
  intro i hi
  simp only [cwOp, packCw, BitVec.getLsbD_extractLsb', BitVec.getLsbD_append]
  grind

@[simp] theorem cwA0_packCw (op : Byte) (a0 a1 a2 a3 a4 : Word) : cwA0 (packCw op a0 a1 a2 a3 a4) = a0 := by
  apply BitVec.eq_of_getLsbD_eq
  intro i hi
  simp only [cwA0, packCw, BitVec.getLsbD_extractLsb', BitVec.getLsbD_append]
  grind

@[simp] theorem cwA1_packCw (op : Byte) (a0 a1 a2 a3 a4 : Word) : cwA1 (packCw op a0 a1 a2 a3 a4) = a1 := by
  apply BitVec.eq_of_getLsbD_eq
  intro i hi
  simp only [cwA1, packCw, BitVec.getLsbD_extractLsb', BitVec.getLsbD_append]
  grind

@[simp] theorem cwA2_packCw (op : Byte) (a0 a1 a2 a3 a4 : Word) : cwA2 (packCw op a0 a1 a2 a3 a4) = a2 := by
  apply BitVec.eq_of_getLsbD_eq
  intro i hi
  simp only [cwA2, packCw, BitVec.getLsbD_extractLsb', BitVec.getLsbD_append]
  grind

@[simp] theorem cwA3_packCw (op : Byte) (a0 a1 a2 a3 a4 : Word) : cwA3 (packCw op a0 a1 a2 a3 a4) = a3 := by
  apply BitVec.eq_of_getLsbD_eq
  intro i hi
  simp only [cwA3, packCw, BitVec.getLsbD_extractLsb', BitVec.getLsbD_append]
  grind

@[simp] theorem cwA4_packCw (op : Byte) (a0 a1 a2 a3 a4 : Word) : cwA4 (packCw op a0 a1 a2 a3 a4) = a4 := by
  apply BitVec.eq_of_getLsbD_eq
  intro i hi
  simp only [cwA4, packCw, BitVec.getLsbD_extractLsb', BitVec.getLsbD_append]
  grind

/-- The bits that an operation uses of an operand made from a 16-bit field (30_encoding.md R94). -/
@[simp] theorem operandHalf_halfOperand (h : Half) : operandHalf (halfOperand h) = h := by
  apply BitVec.eq_of_getLsbD_eq
  intro i hi
  simp [operandHalf, halfOperand, hi, show i < 32 by omega]

/-- The bits that an operation uses of an operand made from a rotation (30_encoding.md R94). -/
@[simp] theorem operandRot_rotOperand (r : BitVec 2) : operandRot (rotOperand r) = r := by
  apply BitVec.eq_of_getLsbD_eq
  intro i hi
  simp [operandRot, rotOperand, show i ≤ 1 by omega, show i < 32 by omega]

/-- The command decoder on a packed word (30_encoding.md R92). -/
theorem decodeCw_packCw (k : ProfileKind) (op : Byte) (a0 a1 a2 a3 a4 : Word) :
    decodeCw k (packCw op a0 a1 a2 a3 a4)
      = if opcodeAssigned k op then decodeOperation op a0 a1 a2 a3 a4 else .reserved op := by
  simp [decodeCw]

/-! ### The parameters' command bytes -/

/-- What a well-formed parameter set says of its five command bytes (00_scope.md R11 (a)). -/
theorem commands_differ (c : Config) : c.namedCommands.Nodup := by
  have h := c.ok
  simp only [Params.wf, Params.commandsDiffer, Bool.and_eq_true, decide_eq_true_eq] at h
  exact h.1.1.1.1.1.1

/-- The bounds of a well-formed parameter set (00_scope.md R7, R9, R10). -/
theorem Config.bounds (c : Config) :
    (1 ≤ c.panelW ∧ c.panelW ≤ 65535 ∧ 1 ≤ c.panelH ∧ c.panelH ≤ 65535 ∧ c.panelW * c.panelH ≤ 2 ^ 30)
      ∧ (10 ≤ c.tRstHold ∧ 100 ≤ c.tRstSettle ∧ 1 ≤ c.fillBatchPixels
        ∧ 2 * c.bufBytes ≤ c.memBytes ∧ c.memBytes ≤ 2 ^ 32) := by
  have h := c.ok
  simp only [Params.wf, Params.panelOk, Params.boundsOk, Bool.and_eq_true, decide_eq_true_eq] at h
  exact ⟨h.1.1.2, h.2⟩

/-- The exchange flag is set for the rotations 1 and 3 alone (00_scope.md R11 (c), (d)). -/
theorem Config.exchange (c : Config) :
    c.orientTable.r0 &&& c.maskEx = 0 ∧ c.orientTable.r1 &&& c.maskEx ≠ 0
      ∧ c.orientTable.r2 &&& c.maskEx = 0 ∧ c.orientTable.r3 &&& c.maskEx ≠ 0 := by
  have h := c.ok
  simp only [Params.wf, Params.exchangeOk, Bool.and_eq_true, decide_eq_true_eq] at h
  exact h.1.1.1.2

/-- The wire decoder on each named command byte (41_receiver.md R146). -/
theorem wireCommand_named (c : Config) (data : List Byte) :
    wireCommand c.toParams c.opColrange data = .columnRange data
      ∧ wireCommand c.toParams c.opRowrange data = .rowRange data
      ∧ wireCommand c.toParams c.opMemwrite data = .beginMemoryWrite data
      ∧ wireCommand c.toParams c.opOrient data = .orientation data
      ∧ wireCommand c.toParams c.opDispon data = .displayOn data := by
  have h := commands_differ c
  simp only [Params.namedCommands, List.nodup_cons, List.mem_cons, List.not_mem_nil, or_false, not_or,
    List.nodup_nil, and_true, not_false_eq_true] at h
  obtain ⟨⟨h1, h2, h3, h4⟩, ⟨h5, h6, h7⟩, ⟨h8, h9⟩, h10⟩ := h
  refine ⟨?_, ?_, ?_, ?_, ?_⟩ <;> simp [wireCommand, *, Ne.symm]

end Sys2Proof
end

