-- ==== Sys2Proof/Laws/State.lean ====
section
/-! SUPPORT. The field lemmas of State: for each named update, what it makes of each field. -/

namespace Sys2Proof.Machine

open Sys2Proof

/-! ### done: `done(v)` (00_scope.md R14) -/

@[simp] theorem State.done_cfg (s : State) (v : Word) : (s.done v).cfg = s.cfg := rfl
@[simp] theorem State.done_op (s : State) (v : Word) : (s.done v).op = s.op := rfl
@[simp] theorem State.done_a0 (s : State) (v : Word) : (s.done v).a0 = s.a0 := rfl
@[simp] theorem State.done_a1 (s : State) (v : Word) : (s.done v).a1 = s.a1 := rfl
@[simp] theorem State.done_a2 (s : State) (v : Word) : (s.done v).a2 = s.a2 := rfl
@[simp] theorem State.done_a3 (s : State) (v : Word) : (s.done v).a3 = s.a3 := rfl
@[simp] theorem State.done_a4 (s : State) (v : Word) : (s.done v).a4 = s.a4 := rfl
@[simp] theorem State.done_rsp (s : State) (v : Word) : (s.done v).rsp = v := rfl
@[simp] theorem State.done_busy (s : State) (v : Word) : (s.done v).busy = false := rfl
@[simp] theorem State.done_rspValid (s : State) (v : Word) : (s.done v).rspValid = true := rfl
@[simp] theorem State.done_pdState (s : State) (v : Word) : (s.done v).pdState = s.pdState := rfl
@[simp] theorem State.done_seqIdx (s : State) (v : Word) : (s.done v).seqIdx = s.seqIdx := rfl
@[simp] theorem State.done_rot (s : State) (v : Word) : (s.done v).rot = s.rot := rfl
@[simp] theorem State.done_effW (s : State) (v : Word) : (s.done v).effW = s.effW := rfl
@[simp] theorem State.done_effH (s : State) (v : Word) : (s.done v).effH = s.effH := rfl
@[simp] theorem State.done_orient (s : State) (v : Word) : (s.done v).orient = s.orient := rfl
@[simp] theorem State.done_xfer (s : State) (v : Word) : (s.done v).xfer = s.xfer := rfl
@[simp] theorem State.done_front (s : State) (v : Word) : (s.done v).front = s.front := rfl
@[simp] theorem State.done_cs (s : State) (v : Word) : (s.done v).cs = s.cs := rfl
@[simp] theorem State.done_dc (s : State) (v : Word) : (s.done v).dc = s.dc := rfl
@[simp] theorem State.done_rst (s : State) (v : Word) : (s.done v).rst = s.rst := rfl
@[simp] theorem State.done_mem (s : State) (v : Word) : (s.done v).mem = s.mem := rfl
@[simp] theorem State.done_memEpoch (s : State) (v : Word) : (s.done v).memEpoch = s.memEpoch := rfl
@[simp] theorem State.done_dma (s : State) (v : Word) : (s.done v).dma = s.dma := rfl
@[simp] theorem State.done_diagOob (s : State) (v : Word) : (s.done v).diagOob = s.diagOob := rfl
@[simp] theorem State.done_rx (s : State) (v : Word) : (s.done v).rx = s.rx := rfl
@[simp] theorem State.done_trace (s : State) (v : Word) : (s.done v).trace = s.trace := rfl
@[simp] theorem State.done_inputs (s : State) (v : Word) : (s.done v).inputs = s.inputs := rfl

/-! ### refuse: `refuse` (00_scope.md R14) -/

@[simp] theorem State.refuse_cfg (s : State) : (s.refuse).cfg = s.cfg := rfl
@[simp] theorem State.refuse_op (s : State) : (s.refuse).op = s.op := rfl
@[simp] theorem State.refuse_a0 (s : State) : (s.refuse).a0 = s.a0 := rfl
@[simp] theorem State.refuse_a1 (s : State) : (s.refuse).a1 = s.a1 := rfl
@[simp] theorem State.refuse_a2 (s : State) : (s.refuse).a2 = s.a2 := rfl
@[simp] theorem State.refuse_a3 (s : State) : (s.refuse).a3 = s.a3 := rfl
@[simp] theorem State.refuse_a4 (s : State) : (s.refuse).a4 = s.a4 := rfl
@[simp] theorem State.refuse_rsp (s : State) : (s.refuse).rsp = 0 := rfl
@[simp] theorem State.refuse_busy (s : State) : (s.refuse).busy = false := rfl
@[simp] theorem State.refuse_rspValid (s : State) : (s.refuse).rspValid = true := rfl
@[simp] theorem State.refuse_pdState (s : State) : (s.refuse).pdState = s.pdState := rfl
@[simp] theorem State.refuse_seqIdx (s : State) : (s.refuse).seqIdx = s.seqIdx := rfl
@[simp] theorem State.refuse_rot (s : State) : (s.refuse).rot = s.rot := rfl
@[simp] theorem State.refuse_effW (s : State) : (s.refuse).effW = s.effW := rfl
@[simp] theorem State.refuse_effH (s : State) : (s.refuse).effH = s.effH := rfl
@[simp] theorem State.refuse_orient (s : State) : (s.refuse).orient = s.orient := rfl
@[simp] theorem State.refuse_xfer (s : State) : (s.refuse).xfer = s.xfer := rfl
@[simp] theorem State.refuse_front (s : State) : (s.refuse).front = s.front := rfl
@[simp] theorem State.refuse_cs (s : State) : (s.refuse).cs = s.cs := rfl
@[simp] theorem State.refuse_dc (s : State) : (s.refuse).dc = s.dc := rfl
@[simp] theorem State.refuse_rst (s : State) : (s.refuse).rst = s.rst := rfl
@[simp] theorem State.refuse_mem (s : State) : (s.refuse).mem = s.mem := rfl
@[simp] theorem State.refuse_memEpoch (s : State) : (s.refuse).memEpoch = s.memEpoch := rfl
@[simp] theorem State.refuse_dma (s : State) : (s.refuse).dma = s.dma := rfl
@[simp] theorem State.refuse_diagOob (s : State) : (s.refuse).diagOob = s.diagOob := rfl
@[simp] theorem State.refuse_rx (s : State) : (s.refuse).rx = s.rx := rfl
@[simp] theorem State.refuse_trace (s : State) : (s.refuse).trace = s.trace := rfl
@[simp] theorem State.refuse_inputs (s : State) : (s.refuse).inputs = s.inputs := rfl

/-! ### countOob: the diagnostic counter (10_state.md R34) -/

@[simp] theorem State.countOob_cfg (s : State) : (s.countOob).cfg = s.cfg := rfl
@[simp] theorem State.countOob_op (s : State) : (s.countOob).op = s.op := rfl
@[simp] theorem State.countOob_a0 (s : State) : (s.countOob).a0 = s.a0 := rfl
@[simp] theorem State.countOob_a1 (s : State) : (s.countOob).a1 = s.a1 := rfl
@[simp] theorem State.countOob_a2 (s : State) : (s.countOob).a2 = s.a2 := rfl
@[simp] theorem State.countOob_a3 (s : State) : (s.countOob).a3 = s.a3 := rfl
@[simp] theorem State.countOob_a4 (s : State) : (s.countOob).a4 = s.a4 := rfl
@[simp] theorem State.countOob_rsp (s : State) : (s.countOob).rsp = s.rsp := rfl
@[simp] theorem State.countOob_busy (s : State) : (s.countOob).busy = s.busy := rfl
@[simp] theorem State.countOob_rspValid (s : State) : (s.countOob).rspValid = s.rspValid := rfl
@[simp] theorem State.countOob_pdState (s : State) : (s.countOob).pdState = s.pdState := rfl
@[simp] theorem State.countOob_seqIdx (s : State) : (s.countOob).seqIdx = s.seqIdx := rfl
@[simp] theorem State.countOob_rot (s : State) : (s.countOob).rot = s.rot := rfl
@[simp] theorem State.countOob_effW (s : State) : (s.countOob).effW = s.effW := rfl
@[simp] theorem State.countOob_effH (s : State) : (s.countOob).effH = s.effH := rfl
@[simp] theorem State.countOob_orient (s : State) : (s.countOob).orient = s.orient := rfl
@[simp] theorem State.countOob_xfer (s : State) : (s.countOob).xfer = s.xfer := rfl
@[simp] theorem State.countOob_front (s : State) : (s.countOob).front = s.front := rfl
@[simp] theorem State.countOob_cs (s : State) : (s.countOob).cs = s.cs := rfl
@[simp] theorem State.countOob_dc (s : State) : (s.countOob).dc = s.dc := rfl
@[simp] theorem State.countOob_rst (s : State) : (s.countOob).rst = s.rst := rfl
@[simp] theorem State.countOob_mem (s : State) : (s.countOob).mem = s.mem := rfl
@[simp] theorem State.countOob_memEpoch (s : State) : (s.countOob).memEpoch = s.memEpoch := rfl
@[simp] theorem State.countOob_dma (s : State) : (s.countOob).dma = s.dma := rfl
@[simp] theorem State.countOob_diagOob (s : State) : (s.countOob).diagOob = satInc s.diagOob := rfl
@[simp] theorem State.countOob_rx (s : State) : (s.countOob).rx = s.rx := rfl
@[simp] theorem State.countOob_trace (s : State) : (s.countOob).trace = s.trace := rfl
@[simp] theorem State.countOob_inputs (s : State) : (s.countOob).inputs = s.inputs := rfl

/-! ### memWrite: `MemWrite` (20_memory.md R62) -/

@[simp] theorem State.memWrite_cfg (s : State) (a : Nat) (v : List Byte) : (s.memWrite a v).cfg = s.cfg := rfl
@[simp] theorem State.memWrite_op (s : State) (a : Nat) (v : List Byte) : (s.memWrite a v).op = s.op := rfl
@[simp] theorem State.memWrite_a0 (s : State) (a : Nat) (v : List Byte) : (s.memWrite a v).a0 = s.a0 := rfl
@[simp] theorem State.memWrite_a1 (s : State) (a : Nat) (v : List Byte) : (s.memWrite a v).a1 = s.a1 := rfl
@[simp] theorem State.memWrite_a2 (s : State) (a : Nat) (v : List Byte) : (s.memWrite a v).a2 = s.a2 := rfl
@[simp] theorem State.memWrite_a3 (s : State) (a : Nat) (v : List Byte) : (s.memWrite a v).a3 = s.a3 := rfl
@[simp] theorem State.memWrite_a4 (s : State) (a : Nat) (v : List Byte) : (s.memWrite a v).a4 = s.a4 := rfl
@[simp] theorem State.memWrite_rsp (s : State) (a : Nat) (v : List Byte) : (s.memWrite a v).rsp = s.rsp := rfl
@[simp] theorem State.memWrite_busy (s : State) (a : Nat) (v : List Byte) : (s.memWrite a v).busy = s.busy := rfl
@[simp] theorem State.memWrite_rspValid (s : State) (a : Nat) (v : List Byte) : (s.memWrite a v).rspValid = s.rspValid := rfl
@[simp] theorem State.memWrite_pdState (s : State) (a : Nat) (v : List Byte) : (s.memWrite a v).pdState = s.pdState := rfl
@[simp] theorem State.memWrite_seqIdx (s : State) (a : Nat) (v : List Byte) : (s.memWrite a v).seqIdx = s.seqIdx := rfl
@[simp] theorem State.memWrite_rot (s : State) (a : Nat) (v : List Byte) : (s.memWrite a v).rot = s.rot := rfl
@[simp] theorem State.memWrite_effW (s : State) (a : Nat) (v : List Byte) : (s.memWrite a v).effW = s.effW := rfl
@[simp] theorem State.memWrite_effH (s : State) (a : Nat) (v : List Byte) : (s.memWrite a v).effH = s.effH := rfl
@[simp] theorem State.memWrite_orient (s : State) (a : Nat) (v : List Byte) : (s.memWrite a v).orient = s.orient := rfl
@[simp] theorem State.memWrite_xfer (s : State) (a : Nat) (v : List Byte) : (s.memWrite a v).xfer = s.xfer := rfl
@[simp] theorem State.memWrite_front (s : State) (a : Nat) (v : List Byte) : (s.memWrite a v).front = s.front := rfl
@[simp] theorem State.memWrite_cs (s : State) (a : Nat) (v : List Byte) : (s.memWrite a v).cs = s.cs := rfl
@[simp] theorem State.memWrite_dc (s : State) (a : Nat) (v : List Byte) : (s.memWrite a v).dc = s.dc := rfl
@[simp] theorem State.memWrite_rst (s : State) (a : Nat) (v : List Byte) : (s.memWrite a v).rst = s.rst := rfl
@[simp] theorem State.memWrite_mem (s : State) (a : Nat) (v : List Byte) : (s.memWrite a v).mem = cellsWrite s.mem a (v.take (s.cfg.memBytes - a)) := rfl
@[simp] theorem State.memWrite_memEpoch (s : State) (a : Nat) (v : List Byte) : (s.memWrite a v).memEpoch = s.memEpoch := rfl
@[simp] theorem State.memWrite_dma (s : State) (a : Nat) (v : List Byte) : (s.memWrite a v).dma = s.dma := rfl
@[simp] theorem State.memWrite_diagOob (s : State) (a : Nat) (v : List Byte) : (s.memWrite a v).diagOob = s.diagOob := rfl
@[simp] theorem State.memWrite_rx (s : State) (a : Nat) (v : List Byte) : (s.memWrite a v).rx = s.rx := rfl
@[simp] theorem State.memWrite_trace (s : State) (a : Nat) (v : List Byte) : (s.memWrite a v).trace = s.trace := rfl
@[simp] theorem State.memWrite_inputs (s : State) (a : Nat) (v : List Byte) : (s.memWrite a v).inputs = s.inputs := rfl

/-! ### emit: `Emit` (00_scope.md R14, R15) -/

@[simp] theorem State.emit_cfg (s : State) (es : List Event) : (s.emit es).cfg = s.cfg := rfl
@[simp] theorem State.emit_op (s : State) (es : List Event) : (s.emit es).op = s.op := rfl
@[simp] theorem State.emit_a0 (s : State) (es : List Event) : (s.emit es).a0 = s.a0 := rfl
@[simp] theorem State.emit_a1 (s : State) (es : List Event) : (s.emit es).a1 = s.a1 := rfl
@[simp] theorem State.emit_a2 (s : State) (es : List Event) : (s.emit es).a2 = s.a2 := rfl
@[simp] theorem State.emit_a3 (s : State) (es : List Event) : (s.emit es).a3 = s.a3 := rfl
@[simp] theorem State.emit_a4 (s : State) (es : List Event) : (s.emit es).a4 = s.a4 := rfl
@[simp] theorem State.emit_rsp (s : State) (es : List Event) : (s.emit es).rsp = s.rsp := rfl
@[simp] theorem State.emit_busy (s : State) (es : List Event) : (s.emit es).busy = s.busy := rfl
@[simp] theorem State.emit_rspValid (s : State) (es : List Event) : (s.emit es).rspValid = s.rspValid := rfl
@[simp] theorem State.emit_pdState (s : State) (es : List Event) : (s.emit es).pdState = s.pdState := rfl
@[simp] theorem State.emit_seqIdx (s : State) (es : List Event) : (s.emit es).seqIdx = s.seqIdx := rfl
@[simp] theorem State.emit_rot (s : State) (es : List Event) : (s.emit es).rot = s.rot := rfl
@[simp] theorem State.emit_effW (s : State) (es : List Event) : (s.emit es).effW = s.effW := rfl
@[simp] theorem State.emit_effH (s : State) (es : List Event) : (s.emit es).effH = s.effH := rfl
@[simp] theorem State.emit_orient (s : State) (es : List Event) : (s.emit es).orient = s.orient := rfl
@[simp] theorem State.emit_xfer (s : State) (es : List Event) : (s.emit es).xfer = s.xfer := rfl
@[simp] theorem State.emit_front (s : State) (es : List Event) : (s.emit es).front = s.front := rfl
@[simp] theorem State.emit_cs (s : State) (es : List Event) : (s.emit es).cs = es.foldl csAfter s.cs := rfl
@[simp] theorem State.emit_dc (s : State) (es : List Event) : (s.emit es).dc = es.foldl dcAfter s.dc := rfl
@[simp] theorem State.emit_rst (s : State) (es : List Event) : (s.emit es).rst = es.foldl rstAfter s.rst := rfl
@[simp] theorem State.emit_mem (s : State) (es : List Event) : (s.emit es).mem = s.mem := rfl
@[simp] theorem State.emit_memEpoch (s : State) (es : List Event) : (s.emit es).memEpoch = s.memEpoch := rfl
@[simp] theorem State.emit_dma (s : State) (es : List Event) : (s.emit es).dma = s.dma := rfl
@[simp] theorem State.emit_diagOob (s : State) (es : List Event) : (s.emit es).diagOob = s.diagOob := rfl
@[simp] theorem State.emit_rx (s : State) (es : List Event) : (s.emit es).rx = Rx.events s.cfg.toParams s.rx es := rfl
@[simp] theorem State.emit_trace (s : State) (es : List Event) : (s.emit es).trace = s.trace ++ es := rfl
@[simp] theorem State.emit_inputs (s : State) (es : List Event) : (s.emit es).inputs = s.inputs := rfl

/-! ### setRotation: the state part of `ApplyRotation` (42_panel_driver.md R173) -/

@[simp] theorem State.setRotation_cfg (s : State) (r : BitVec 2) : (s.setRotation r).cfg = s.cfg := rfl
@[simp] theorem State.setRotation_op (s : State) (r : BitVec 2) : (s.setRotation r).op = s.op := rfl
@[simp] theorem State.setRotation_a0 (s : State) (r : BitVec 2) : (s.setRotation r).a0 = s.a0 := rfl
@[simp] theorem State.setRotation_a1 (s : State) (r : BitVec 2) : (s.setRotation r).a1 = s.a1 := rfl
@[simp] theorem State.setRotation_a2 (s : State) (r : BitVec 2) : (s.setRotation r).a2 = s.a2 := rfl
@[simp] theorem State.setRotation_a3 (s : State) (r : BitVec 2) : (s.setRotation r).a3 = s.a3 := rfl
@[simp] theorem State.setRotation_a4 (s : State) (r : BitVec 2) : (s.setRotation r).a4 = s.a4 := rfl
@[simp] theorem State.setRotation_rsp (s : State) (r : BitVec 2) : (s.setRotation r).rsp = s.rsp := rfl
@[simp] theorem State.setRotation_busy (s : State) (r : BitVec 2) : (s.setRotation r).busy = s.busy := rfl
@[simp] theorem State.setRotation_rspValid (s : State) (r : BitVec 2) : (s.setRotation r).rspValid = s.rspValid := rfl
@[simp] theorem State.setRotation_pdState (s : State) (r : BitVec 2) : (s.setRotation r).pdState = s.pdState := rfl
@[simp] theorem State.setRotation_seqIdx (s : State) (r : BitVec 2) : (s.setRotation r).seqIdx = s.seqIdx := rfl
@[simp] theorem State.setRotation_rot (s : State) (r : BitVec 2) : (s.setRotation r).rot = r := rfl
@[simp] theorem State.setRotation_effW (s : State) (r : BitVec 2) : (s.setRotation r).effW = rotW s.cfg.toParams r := rfl
@[simp] theorem State.setRotation_effH (s : State) (r : BitVec 2) : (s.setRotation r).effH = rotH s.cfg.toParams r := rfl
@[simp] theorem State.setRotation_orient (s : State) (r : BitVec 2) : (s.setRotation r).orient = orientByte s.cfg.toParams r := rfl
@[simp] theorem State.setRotation_xfer (s : State) (r : BitVec 2) : (s.setRotation r).xfer = s.xfer := rfl
@[simp] theorem State.setRotation_front (s : State) (r : BitVec 2) : (s.setRotation r).front = s.front := rfl
@[simp] theorem State.setRotation_cs (s : State) (r : BitVec 2) : (s.setRotation r).cs = s.cs := rfl
@[simp] theorem State.setRotation_dc (s : State) (r : BitVec 2) : (s.setRotation r).dc = s.dc := rfl
@[simp] theorem State.setRotation_rst (s : State) (r : BitVec 2) : (s.setRotation r).rst = s.rst := rfl
@[simp] theorem State.setRotation_mem (s : State) (r : BitVec 2) : (s.setRotation r).mem = s.mem := rfl
@[simp] theorem State.setRotation_memEpoch (s : State) (r : BitVec 2) : (s.setRotation r).memEpoch = s.memEpoch := rfl
@[simp] theorem State.setRotation_dma (s : State) (r : BitVec 2) : (s.setRotation r).dma = s.dma := rfl
@[simp] theorem State.setRotation_diagOob (s : State) (r : BitVec 2) : (s.setRotation r).diagOob = s.diagOob := rfl
@[simp] theorem State.setRotation_rx (s : State) (r : BitVec 2) : (s.setRotation r).rx = s.rx := rfl
@[simp] theorem State.setRotation_trace (s : State) (r : BitVec 2) : (s.setRotation r).trace = s.trace := rfl
@[simp] theorem State.setRotation_inputs (s : State) (r : BitVec 2) : (s.setRotation r).inputs = s.inputs := rfl

/-! ### receive: events of another driver of the link (41_receiver.md R142) -/

@[simp] theorem State.receive_cfg (s : State) (es : List Event) : (s.receive es).cfg = s.cfg := rfl
@[simp] theorem State.receive_op (s : State) (es : List Event) : (s.receive es).op = s.op := rfl
@[simp] theorem State.receive_a0 (s : State) (es : List Event) : (s.receive es).a0 = s.a0 := rfl
@[simp] theorem State.receive_a1 (s : State) (es : List Event) : (s.receive es).a1 = s.a1 := rfl
@[simp] theorem State.receive_a2 (s : State) (es : List Event) : (s.receive es).a2 = s.a2 := rfl
@[simp] theorem State.receive_a3 (s : State) (es : List Event) : (s.receive es).a3 = s.a3 := rfl
@[simp] theorem State.receive_a4 (s : State) (es : List Event) : (s.receive es).a4 = s.a4 := rfl
@[simp] theorem State.receive_rsp (s : State) (es : List Event) : (s.receive es).rsp = s.rsp := rfl
@[simp] theorem State.receive_busy (s : State) (es : List Event) : (s.receive es).busy = s.busy := rfl
@[simp] theorem State.receive_rspValid (s : State) (es : List Event) : (s.receive es).rspValid = s.rspValid := rfl
@[simp] theorem State.receive_pdState (s : State) (es : List Event) : (s.receive es).pdState = s.pdState := rfl
@[simp] theorem State.receive_seqIdx (s : State) (es : List Event) : (s.receive es).seqIdx = s.seqIdx := rfl
@[simp] theorem State.receive_rot (s : State) (es : List Event) : (s.receive es).rot = s.rot := rfl
@[simp] theorem State.receive_effW (s : State) (es : List Event) : (s.receive es).effW = s.effW := rfl
@[simp] theorem State.receive_effH (s : State) (es : List Event) : (s.receive es).effH = s.effH := rfl
@[simp] theorem State.receive_orient (s : State) (es : List Event) : (s.receive es).orient = s.orient := rfl
@[simp] theorem State.receive_xfer (s : State) (es : List Event) : (s.receive es).xfer = s.xfer := rfl
@[simp] theorem State.receive_front (s : State) (es : List Event) : (s.receive es).front = s.front := rfl
@[simp] theorem State.receive_cs (s : State) (es : List Event) : (s.receive es).cs = s.cs := rfl
@[simp] theorem State.receive_dc (s : State) (es : List Event) : (s.receive es).dc = s.dc := rfl
@[simp] theorem State.receive_rst (s : State) (es : List Event) : (s.receive es).rst = s.rst := rfl
@[simp] theorem State.receive_mem (s : State) (es : List Event) : (s.receive es).mem = s.mem := rfl
@[simp] theorem State.receive_memEpoch (s : State) (es : List Event) : (s.receive es).memEpoch = s.memEpoch := rfl
@[simp] theorem State.receive_dma (s : State) (es : List Event) : (s.receive es).dma = s.dma := rfl
@[simp] theorem State.receive_diagOob (s : State) (es : List Event) : (s.receive es).diagOob = s.diagOob := rfl
@[simp] theorem State.receive_rx (s : State) (es : List Event) : (s.receive es).rx = Rx.events s.cfg.toParams s.rx es := rfl
@[simp] theorem State.receive_trace (s : State) (es : List Event) : (s.receive es).trace = s.trace := rfl
@[simp] theorem State.receive_inputs (s : State) (es : List Event) : (s.receive es).inputs = s.inputs := rfl

/-! ### accept: the acceptance of a command word (10_state.md R52) -/

@[simp] theorem State.accept_cfg (s : State) (w : CommandWord) : (s.accept w).cfg = s.cfg := rfl
@[simp] theorem State.accept_op (s : State) (w : CommandWord) : (s.accept w).op = cwOp w := rfl
@[simp] theorem State.accept_a0 (s : State) (w : CommandWord) : (s.accept w).a0 = cwA0 w := rfl
@[simp] theorem State.accept_a1 (s : State) (w : CommandWord) : (s.accept w).a1 = cwA1 w := rfl
@[simp] theorem State.accept_a2 (s : State) (w : CommandWord) : (s.accept w).a2 = cwA2 w := rfl
@[simp] theorem State.accept_a3 (s : State) (w : CommandWord) : (s.accept w).a3 = cwA3 w := rfl
@[simp] theorem State.accept_a4 (s : State) (w : CommandWord) : (s.accept w).a4 = cwA4 w := rfl
@[simp] theorem State.accept_rsp (s : State) (w : CommandWord) : (s.accept w).rsp = s.rsp := rfl
@[simp] theorem State.accept_busy (s : State) (w : CommandWord) : (s.accept w).busy = true := rfl
@[simp] theorem State.accept_rspValid (s : State) (w : CommandWord) : (s.accept w).rspValid = false := rfl
@[simp] theorem State.accept_pdState (s : State) (w : CommandWord) : (s.accept w).pdState = s.pdState := rfl
@[simp] theorem State.accept_seqIdx (s : State) (w : CommandWord) : (s.accept w).seqIdx = s.seqIdx := rfl
@[simp] theorem State.accept_rot (s : State) (w : CommandWord) : (s.accept w).rot = s.rot := rfl
@[simp] theorem State.accept_effW (s : State) (w : CommandWord) : (s.accept w).effW = s.effW := rfl
@[simp] theorem State.accept_effH (s : State) (w : CommandWord) : (s.accept w).effH = s.effH := rfl
@[simp] theorem State.accept_orient (s : State) (w : CommandWord) : (s.accept w).orient = s.orient := rfl
@[simp] theorem State.accept_xfer (s : State) (w : CommandWord) : (s.accept w).xfer = s.xfer := rfl
@[simp] theorem State.accept_front (s : State) (w : CommandWord) : (s.accept w).front = s.front := rfl
@[simp] theorem State.accept_cs (s : State) (w : CommandWord) : (s.accept w).cs = s.cs := rfl
@[simp] theorem State.accept_dc (s : State) (w : CommandWord) : (s.accept w).dc = s.dc := rfl
@[simp] theorem State.accept_rst (s : State) (w : CommandWord) : (s.accept w).rst = s.rst := rfl
@[simp] theorem State.accept_mem (s : State) (w : CommandWord) : (s.accept w).mem = s.mem := rfl
@[simp] theorem State.accept_memEpoch (s : State) (w : CommandWord) : (s.accept w).memEpoch = s.memEpoch := rfl
@[simp] theorem State.accept_dma (s : State) (w : CommandWord) : (s.accept w).dma = s.dma := rfl
@[simp] theorem State.accept_diagOob (s : State) (w : CommandWord) : (s.accept w).diagOob = s.diagOob := rfl
@[simp] theorem State.accept_rx (s : State) (w : CommandWord) : (s.accept w).rx = s.rx := rfl
@[simp] theorem State.accept_trace (s : State) (w : CommandWord) : (s.accept w).trace = s.trace := rfl
@[simp] theorem State.accept_inputs (s : State) (w : CommandWord) : (s.accept w).inputs = s.inputs := rfl

/-! ### consume: the use of an input item -/

@[simp] theorem State.consume_cfg (s : State) : (s.consume).cfg = s.cfg := rfl
@[simp] theorem State.consume_op (s : State) : (s.consume).op = s.op := rfl
@[simp] theorem State.consume_a0 (s : State) : (s.consume).a0 = s.a0 := rfl
@[simp] theorem State.consume_a1 (s : State) : (s.consume).a1 = s.a1 := rfl
@[simp] theorem State.consume_a2 (s : State) : (s.consume).a2 = s.a2 := rfl
@[simp] theorem State.consume_a3 (s : State) : (s.consume).a3 = s.a3 := rfl
@[simp] theorem State.consume_a4 (s : State) : (s.consume).a4 = s.a4 := rfl
@[simp] theorem State.consume_rsp (s : State) : (s.consume).rsp = s.rsp := rfl
@[simp] theorem State.consume_busy (s : State) : (s.consume).busy = s.busy := rfl
@[simp] theorem State.consume_rspValid (s : State) : (s.consume).rspValid = false := rfl
@[simp] theorem State.consume_pdState (s : State) : (s.consume).pdState = s.pdState := rfl
@[simp] theorem State.consume_seqIdx (s : State) : (s.consume).seqIdx = s.seqIdx := rfl
@[simp] theorem State.consume_rot (s : State) : (s.consume).rot = s.rot := rfl
@[simp] theorem State.consume_effW (s : State) : (s.consume).effW = s.effW := rfl
@[simp] theorem State.consume_effH (s : State) : (s.consume).effH = s.effH := rfl
@[simp] theorem State.consume_orient (s : State) : (s.consume).orient = s.orient := rfl
@[simp] theorem State.consume_xfer (s : State) : (s.consume).xfer = s.xfer := rfl
@[simp] theorem State.consume_front (s : State) : (s.consume).front = s.front := rfl
@[simp] theorem State.consume_cs (s : State) : (s.consume).cs = s.cs := rfl
@[simp] theorem State.consume_dc (s : State) : (s.consume).dc = s.dc := rfl
@[simp] theorem State.consume_rst (s : State) : (s.consume).rst = s.rst := rfl
@[simp] theorem State.consume_mem (s : State) : (s.consume).mem = s.mem := rfl
@[simp] theorem State.consume_memEpoch (s : State) : (s.consume).memEpoch = s.memEpoch := rfl
@[simp] theorem State.consume_dma (s : State) : (s.consume).dma = s.dma := rfl
@[simp] theorem State.consume_diagOob (s : State) : (s.consume).diagOob = s.diagOob := rfl
@[simp] theorem State.consume_rx (s : State) : (s.consume).rx = s.rx := rfl
@[simp] theorem State.consume_trace (s : State) : (s.consume).trace = s.trace := rfl
@[simp] theorem State.consume_inputs (s : State) : (s.consume).inputs = s.inputs.tail := rfl

/-! ### lowerValid: the end of a response's delivery (10_state.md R52) -/

@[simp] theorem State.lowerValid_cfg (s : State) : (s.lowerValid).cfg = s.cfg := rfl
@[simp] theorem State.lowerValid_op (s : State) : (s.lowerValid).op = s.op := rfl
@[simp] theorem State.lowerValid_a0 (s : State) : (s.lowerValid).a0 = s.a0 := rfl
@[simp] theorem State.lowerValid_a1 (s : State) : (s.lowerValid).a1 = s.a1 := rfl
@[simp] theorem State.lowerValid_a2 (s : State) : (s.lowerValid).a2 = s.a2 := rfl
@[simp] theorem State.lowerValid_a3 (s : State) : (s.lowerValid).a3 = s.a3 := rfl
@[simp] theorem State.lowerValid_a4 (s : State) : (s.lowerValid).a4 = s.a4 := rfl
@[simp] theorem State.lowerValid_rsp (s : State) : (s.lowerValid).rsp = s.rsp := rfl
@[simp] theorem State.lowerValid_busy (s : State) : (s.lowerValid).busy = s.busy := rfl
@[simp] theorem State.lowerValid_rspValid (s : State) : (s.lowerValid).rspValid = false := rfl
@[simp] theorem State.lowerValid_pdState (s : State) : (s.lowerValid).pdState = s.pdState := rfl
@[simp] theorem State.lowerValid_seqIdx (s : State) : (s.lowerValid).seqIdx = s.seqIdx := rfl
@[simp] theorem State.lowerValid_rot (s : State) : (s.lowerValid).rot = s.rot := rfl
@[simp] theorem State.lowerValid_effW (s : State) : (s.lowerValid).effW = s.effW := rfl
@[simp] theorem State.lowerValid_effH (s : State) : (s.lowerValid).effH = s.effH := rfl
@[simp] theorem State.lowerValid_orient (s : State) : (s.lowerValid).orient = s.orient := rfl
@[simp] theorem State.lowerValid_xfer (s : State) : (s.lowerValid).xfer = s.xfer := rfl
@[simp] theorem State.lowerValid_front (s : State) : (s.lowerValid).front = s.front := rfl
@[simp] theorem State.lowerValid_cs (s : State) : (s.lowerValid).cs = s.cs := rfl
@[simp] theorem State.lowerValid_dc (s : State) : (s.lowerValid).dc = s.dc := rfl
@[simp] theorem State.lowerValid_rst (s : State) : (s.lowerValid).rst = s.rst := rfl
@[simp] theorem State.lowerValid_mem (s : State) : (s.lowerValid).mem = s.mem := rfl
@[simp] theorem State.lowerValid_memEpoch (s : State) : (s.lowerValid).memEpoch = s.memEpoch := rfl
@[simp] theorem State.lowerValid_dma (s : State) : (s.lowerValid).dma = s.dma := rfl
@[simp] theorem State.lowerValid_diagOob (s : State) : (s.lowerValid).diagOob = s.diagOob := rfl
@[simp] theorem State.lowerValid_rx (s : State) : (s.lowerValid).rx = s.rx := rfl
@[simp] theorem State.lowerValid_trace (s : State) : (s.lowerValid).trace = s.trace := rfl
@[simp] theorem State.lowerValid_inputs (s : State) : (s.lowerValid).inputs = s.inputs := rfl

end Sys2Proof.Machine
end

