-- ==== Sys2Proof/Laws/Memory.lean ====
section
/-! SUPPORT. Engine memory and panel memory: a read after a write, and the canonical form. -/

namespace Sys2Proof.Machine

open Sys2Proof

/-! ### Cell lists -/

theorem cellGet_append {α : Type} (m n : List (Nat × α)) (k : Nat) :
    cellGet (m ++ n) k = (cellGet m k).or (cellGet n k) := by
  induction m with
  | nil => simp [cellGet]
  | cons c m ih => by_cases h : c.1 = k <;> simp [cellGet, h, ih]

theorem cellGet_filter_of_pos {α : Type} (p : Nat → Bool) (m : List (Nat × α)) (k : Nat) (h : p k = true) :
    cellGet (m.filter (fun c => p c.1)) k = cellGet m k := by
  induction m with
  | nil => rfl
  | cons c m ih =>
    by_cases hk : c.1 = k
    · simp [cellGet, hk, h]
    · by_cases hp : p c.1 = true <;> simp [cellGet, hp, hk, ih]

theorem cellGet_filter_of_neg {α : Type} (p : Nat → Bool) (m : List (Nat × α)) (k : Nat) (h : p k = false) :
    cellGet (m.filter (fun c => p c.1)) k = none := by
  induction m with
  | nil => rfl
  | cons c m ih =>
    by_cases hp : p c.1 = true
    · have hk : c.1 ≠ k := fun e => by simp [e, h] at hp
      simp [cellGet, hp, hk, ih]
    · simp [hp, ih]

theorem cellGet_cellsAt {α : Type} (vs : List α) (a k : Nat) :
    cellGet (cellsAt a vs) k = if a ≤ k then vs[k - a]? else none := by
  induction vs generalizing a with
  | nil => simp [cellsAt, cellGet]
  | cons v vs ih =>
    rw [cellsAt, cellGet, ih]
    rcases Nat.lt_trichotomy a k with h | h | h
    · have : k - a = (k - (a + 1)) + 1 := by omega
      simp [Nat.ne_of_lt h, Nat.le_of_lt h, Nat.succ_le_of_lt h, this]
    · simp [h]
    · simp [Nat.ne_of_gt h, Nat.not_le_of_lt h, show ¬ a + 1 ≤ k by omega]

/-- A read after a write: the value written inside the range, the old value outside (20_memory.md R62). -/
theorem cellGet_cellsWrite {α : Type} (m : List (Nat × α)) (a : Nat) (vs : List α) (k : Nat) :
    cellGet (cellsWrite m a vs) k
      = if a ≤ k ∧ k < a + vs.length then vs[k - a]? else cellGet m k := by
  rw [cellsWrite, cellGet_append, cellGet_append, cellGet_cellsAt]
  rcases Nat.lt_or_ge k a with h | h
  · rw [cellGet_filter_of_pos (fun x => decide (x < a)) m k (by simp [h]),
      cellGet_filter_of_neg (fun x => decide (a + vs.length ≤ x)) m k (by simp; omega)]
    simp [show ¬ a ≤ k by omega]
  · rw [cellGet_filter_of_neg (fun x => decide (x < a)) m k (by simp; omega)]
    rcases Nat.lt_or_ge k (a + vs.length) with h' | h'
    · have hk : k - a < vs.length := by omega
      simp [h, h', List.getElem?_eq_getElem hk]
    · rw [cellGet_filter_of_pos (fun x => decide (a + vs.length ≤ x)) m k (by simp [h'])]
      simp [h, show ¬ k < a + vs.length by omega, List.getElem?_eq_none (show vs.length ≤ k - a by omega)]

/-! ### The canonical form -/

theorem keysRise_iff_pairwise {α : Type} (m : List (Nat × α)) :
    keysRise m = true ↔ m.Pairwise (fun c d => c.1 < d.1) := by
  induction m with
  | nil => simp [keysRise]
  | cons c m ih =>
    cases m with
    | nil => simp [keysRise]
    | cons d rest =>
      rw [keysRise, Bool.and_eq_true, ih, decide_eq_true_eq]
      constructor
      · rintro ⟨h, hp⟩
        refine List.pairwise_cons.2 ⟨fun e he => ?_, hp⟩
        rcases List.mem_cons.1 he with rfl | he
        · exact h
        · exact h.trans ((List.pairwise_cons.1 hp).1 e he)
      · intro hp
        exact ⟨(List.pairwise_cons.1 hp).1 d (by simp), (List.pairwise_cons.1 hp).2⟩

theorem mem_cellsAt_key {α : Type} {vs : List α} {a : Nat} {c : Nat × α} (h : c ∈ cellsAt a vs) :
    a ≤ c.1 ∧ c.1 < a + vs.length := by
  induction vs generalizing a with
  | nil => simp [cellsAt] at h
  | cons v vs ih =>
    rcases List.mem_cons.1 h with rfl | h
    · simp
    · have := ih h
      simp only [List.length_cons]
      omega

theorem pairwise_cellsAt {α : Type} (vs : List α) (a : Nat) :
    (cellsAt a vs).Pairwise (fun c d => c.1 < d.1) := by
  induction vs generalizing a with
  | nil => simp [cellsAt]
  | cons v vs ih =>
    refine List.pairwise_cons.2 ⟨fun c hc => ?_, ih (a + 1)⟩
    have := mem_cellsAt_key hc
    show a < c.1
    omega

/-- A write keeps the canonical form. -/
theorem keysRise_cellsWrite {α : Type} {m : List (Nat × α)} (h : keysRise m = true) (a : Nat) (vs : List α) :
    keysRise (cellsWrite m a vs) = true := by
  rw [keysRise_iff_pairwise] at h ⊢
  rw [cellsWrite, List.append_assoc, List.pairwise_append, List.pairwise_append]
  refine ⟨h.filter _, ⟨pairwise_cellsAt vs a, h.filter _, fun c hc d hd => ?_⟩, fun c hc d hd => ?_⟩
  · have h1 := mem_cellsAt_key hc
    have h2 := (List.mem_filter.1 hd).2
    simp only [decide_eq_true_eq] at h2
    omega
  · have h1 := (List.mem_filter.1 hc).2
    simp only [decide_eq_true_eq] at h1
    rcases List.mem_append.1 hd with hd | hd
    · have h2 := mem_cellsAt_key hd
      omega
    · have h2 := (List.mem_filter.1 hd).2
      simp only [decide_eq_true_eq] at h2
      omega

/-- A write to engine memory, the only operation that changes it, keeps its canonical form. -/
theorem memWrite_keeps_wf {s : State} (h : Memory.wf s.mem = true) (a : Nat) (v : List Byte) :
    Memory.wf (s.memWrite a v).mem = true := keysRise_cellsWrite h a _

theorem reset_memory_wf (c : Config) : Memory.wf (State.resetOf c).mem = true := rfl

/-- The keys a write lists are old keys or keys of its range. -/
theorem mem_cellsWrite_key {α : Type} {m : List (Nat × α)} {a : Nat} {vs : List α} {c : Nat × α}
    (h : c ∈ cellsWrite m a vs) : c ∈ m ∨ (a ≤ c.1 ∧ c.1 < a + vs.length) := by
  rw [cellsWrite, List.mem_append, List.mem_append] at h
  rcases h with (h | h) | h
  · exact .inl (List.mem_filter.1 h).1
  · exact .inr (mem_cellsAt_key h)
  · exact .inl (List.mem_filter.1 h).1

/-! ### Bytes -/

/-- A write lists bytes of engine memory only, if nothing else was listed. -/
theorem memWrite_keeps_inside {s : State} (h : ∀ c ∈ s.mem, c.1 < s.cfg.memBytes) (a : Nat) (v : List Byte) :
    ∀ c ∈ (s.memWrite a v).mem, c.1 < s.cfg.memBytes := by
  intro c hc
  rcases mem_cellsWrite_key hc with hc | ⟨h1, h2⟩
  · exact h c hc
  · rw [List.length_take] at h2
    omega

/-- A write inside engine memory writes all of its bytes (20_memory.md R62). -/
theorem memWrite_of_inside (s : State) (a : Nat) (v : List Byte) (h : a + v.length ≤ s.cfg.memBytes) :
    s.memWrite a v = { s with mem := cellsWrite s.mem a v } := by
  rw [State.memWrite, List.take_of_length_le (by omega)]

/-- One byte after a write (20_memory.md R62). -/
theorem byteAt_memWrite (s : State) (a : Nat) (v : List Byte) (k : Nat) :
    (s.memWrite a v).byteAt k
      = if h : a ≤ k ∧ k < a + v.length ∧ k < s.cfg.memBytes then v[k - a]'(by omega) else s.byteAt k := by
  simp only [State.byteAt, State.memWrite_mem, State.memWrite_memEpoch, cellGet_cellsWrite, List.length_take]
  by_cases h : a ≤ k ∧ k < a + v.length ∧ k < s.cfg.memBytes
  · have hk : k - a < v.length := by omega
    rw [dif_pos h, if_pos (by omega), List.getElem?_take, if_pos (by omega), List.getElem?_eq_getElem hk]
    rfl
  · rw [dif_neg h, if_neg (by omega)]

/-- Outside the range a write leaves every byte. -/
theorem byteAt_memWrite_outside (s : State) (a : Nat) (v : List Byte) (k : Nat)
    (h : k < a ∨ a + v.length ≤ k) : (s.memWrite a v).byteAt k = s.byteAt k := by
  rw [byteAt_memWrite, dif_neg (by omega)]

@[simp] theorem bytesAt_length (s : State) (a n : Nat) : (s.bytesAt a n).length = n := by
  induction n generalizing a with
  | zero => rfl
  | succ n ih => simp [State.bytesAt, ih]

theorem bytesAt_getElem? (s : State) (a n i : Nat) :
    (s.bytesAt a n)[i]? = if i < n then some (s.byteAt (a + i)) else none := by
  induction n generalizing a i with
  | zero => simp [State.bytesAt]
  | succ n ih =>
    cases i with
    | zero => simp [State.bytesAt]
    | succ i =>
      simp only [State.bytesAt, List.getElem?_cons_succ, ih, Nat.add_lt_add_iff_right]
      rw [show a + 1 + i = a + (i + 1) by omega]

/-- Two states that hold the same bytes in a range read the same list there. -/
theorem bytesAt_congr {s t : State} (a n : Nat) (h : ∀ k, a ≤ k → k < a + n → s.byteAt k = t.byteAt k) :
    s.bytesAt a n = t.bytesAt a n := by
  induction n generalizing a with
  | zero => rfl
  | succ n ih =>
    simp only [State.bytesAt]
    rw [h a (le_refl a) (by omega), ih (a + 1) (fun k h1 h2 => h k (by omega) (by omega))]

/-! ### Pixels -/

@[simp] theorem wireHalf_length (c : Half) : (wireHalf c).length = 2 := rfl

@[simp] theorem wirePixels_length (c : Half) (n : Nat) : (wirePixels c n).length = 2 * n := by
  induction n with
  | zero => rfl
  | succ n ih =>
    rw [show wirePixels c (n + 1) = wireHalf c ++ wirePixels c n from rfl, List.length_append, ih]
    simp only [wireHalf_length]
    omega

theorem wirePixels_getElem? (c : Half) (n i : Nat) (h : i < 2 * n) :
    (wirePixels c n)[i]? = some (if i % 2 = 0 then hi8 c else lo8 c) := by
  induction n generalizing i with
  | zero => omega
  | succ n ih =>
    rw [show wirePixels c (n + 1) = hi8 c :: lo8 c :: wirePixels c n from rfl]
    match i with
    | 0 => simp
    | 1 => simp
    | i + 2 =>
      rw [List.getElem?_cons_succ, List.getElem?_cons_succ, ih i (by omega)]
      simp

/-- `n + 1` pixels are `n` pixels and one more: the run of stores is the loop of the spec (20_memory.md R64). -/
theorem wirePixels_add (c : Half) (m n : Nat) : wirePixels c (m + n) = wirePixels c m ++ wirePixels c n := by
  induction m with
  | zero => simp [wirePixels]
  | succ m ih =>
    rw [show m + 1 + n = (m + n) + 1 by omega]
    rw [show wirePixels c (m + n + 1) = wireHalf c ++ wirePixels c (m + n) from rfl, ih]
    rw [show wirePixels c (m + 1) = wireHalf c ++ wirePixels c m from rfl, List.append_assoc]

/-- What a run of PixStores does: engine memory alone may change. -/
theorem pixStores_frame (s : State) (b : BitVec 1) (i n : Nat) (c : Half) :
    s.pixStores b i n c = { s with mem := (s.pixStores b i n c).mem } := rfl

/-- What a run of PixStores does to each byte: the bytes of its `n` pixels alternate, the more significant at the lower
address, and every other byte stays (20_memory.md R64). -/
theorem byteAt_pixStores (s : State) (b : BitVec 1) (i n : Nat) (c : Half) (k : Nat) :
    (s.pixStores b i n c).byteAt k
      = if bufBase s.cfg.toParams b + 2 * i ≤ k ∧ k < bufBase s.cfg.toParams b + 2 * i + 2 * n ∧ k < s.cfg.memBytes then
          if (k - (bufBase s.cfg.toParams b + 2 * i)) % 2 = 0 then hi8 c else lo8 c
        else s.byteAt k := by
  rw [State.pixStores, byteAt_memWrite]
  simp only [wirePixels_length]
  split
  · rename_i h
    have e := wirePixels_getElem? c n (k - (bufBase s.cfg.toParams b + 2 * i)) (by omega)
    rw [List.getElem?_eq_getElem (by rw [wirePixels_length]; omega)] at e
    exact Option.some.inj e
  · rfl

/-! ### Panel memory -/

/-- A cell after a write to the panel memory (20_memory.md R70). -/
theorem cell_setCell (r : Rx) (pc pr : Nat) (px : Half) (c y : Nat) :
    (r.setCell pc pr px).cell c y
      = if y = pr ∧ c = pc ∧ (r.gram[pr]?.bind (fun row => row[pc]?)).isSome then some px else r.cell c y := by
  unfold Rx.cell Rx.setCell
  simp only [List.getElem?_modify]
  by_cases hy : y = pr
  · subst hy
    cases hrow : r.gram[y]? with
    | none => simp
    | some row =>
      by_cases hc : c = pc
      · subst hc
        by_cases hl : c < row.length
        · simp [hl]
        · simp [hl]
      · simp [hc, Ne.symm hc]
  · simp [hy, Ne.symm hy]

theorem setCell_keeps_wf {p : Params} {r : Rx} (h : Gram.wf p r.gram = true) (pc pr : Nat) (px : Half) :
    Gram.wf p (r.setCell pc pr px).gram = true := by
  simp only [Gram.wf, Rx.setCell, Bool.and_eq_true, decide_eq_true_eq, List.length_modify, List.all_eq_true] at h ⊢
  refine ⟨h.1, fun row hrow => ?_⟩
  obtain ⟨i, hi, rfl⟩ := List.getElem_of_mem hrow
  rw [List.getElem_modify]
  have hi' : i < r.gram.length := by simpa using hi
  split
  · simpa using h.2 _ (List.getElem_mem hi')
  · exact h.2 _ (List.getElem_mem hi')

theorem unwritten_wf (p : Params) : Gram.wf p (Gram.unwritten p) = true := by
  simp [Gram.wf, Gram.unwritten]

end Sys2Proof.Machine
end

