-- ==== Sys2Proof/Laws/Link.lean ====
section
/-! SUPPORT. What the shared operations of the link can do: emission, the transport primitives, the DMA step, RX's
steps on whole brackets, and the two procedures of the Panel Driver. -/

namespace Sys2Proof.Machine

open Sys2Proof

/-! ### Emission -/

@[simp] theorem Rx.events_nil (p : Params) (r : Rx) : Rx.events p r [] = r := rfl

@[simp] theorem Rx.events_cons (p : Params) (r : Rx) (e : Event) (es : List Event) :
    Rx.events p r (e :: es) = Rx.events p (Rx.event p r e) es := rfl

@[simp] theorem Rx.events_append (p : Params) (r : Rx) (es fs : List Event) :
    Rx.events p r (es ++ fs) = Rx.events p (Rx.events p r es) fs := List.foldl_append

@[simp] theorem State.emit_nil (s : State) : s.emit [] = s := by simp [State.emit]

/-- Emitting two lists one after the other is emitting them as one. -/
theorem State.emit_emit (s : State) (es fs : List Event) : (s.emit es).emit fs = s.emit (es ++ fs) := by
  simp [State.emit]

/-- The lines after bytes alone: as before. -/
theorem lines_after_bytes (l : Bool) (bs : List Byte) :
    (bs.map Event.tx).foldl csAfter l = l ∧ (bs.map Event.tx).foldl dcAfter l = l
      ∧ (bs.map Event.tx).foldl rstAfter l = l := by
  induction bs with
  | nil => simp
  | cons b bs ih => simpa [csAfter, dcAfter, rstAfter] using ih

/-- The lines after a command bracket (40_bus_transport.md R121). -/
@[simp] theorem btCmd_lines (l : Bool) (b : Byte) :
    (btCmd b).foldl csAfter l = true ∧ (btCmd b).foldl dcAfter l = false ∧ (btCmd b).foldl rstAfter l = l :=
  ⟨rfl, rfl, rfl⟩

/-- The lines after a data bracket (40_bus_transport.md R122). -/
@[simp] theorem btData_lines (l : Bool) (bs : List Byte) :
    (btData bs).foldl csAfter l = true ∧ (btData bs).foldl dcAfter l = true
      ∧ (btData bs).foldl rstAfter l = l := by
  simp [btData, List.foldl_append, lines_after_bytes, csAfter, dcAfter, rstAfter]

/-- The lines after an address window (42_panel_driver.md R175). -/
theorem setWindow_lines (p : Params) (l : Bool) (x0 y0 x1 y1 : Half) :
    (setWindow p x0 y0 x1 y1).foldl csAfter l = true ∧ (setWindow p x0 y0 x1 y1).foldl dcAfter l = false
      ∧ (setWindow p x0 y0 x1 y1).foldl rstAfter l = l := by
  simp [setWindow, List.foldl_append]

/-- The lines after any number of data brackets. -/
theorem brackets_lines (bss : List (List Byte)) (l : Bool) :
    (bss.flatMap btData).foldl csAfter l = (bss ≠ [] || l)
      ∧ (bss.flatMap btData).foldl dcAfter l = (bss ≠ [] || l)
      ∧ (bss.flatMap btData).foldl rstAfter l = l := by
  induction bss generalizing l with
  | nil => simp
  | cons b bss ih =>
    simp only [List.flatMap_cons, List.foldl_append, btData_lines]
    refine ⟨?_, ?_, (ih l).2.2⟩
    · rw [(ih true).1]; simp
    · rw [(ih true).2.1]; simp

/-! ### The primitives -/

/-- `BT_DmaDone` (40_bus_transport.md R124): true with nothing changed where no transfer is active, false with nothing
changed while bytes are left, else the bracket is closed. -/
theorem btDmaDone_cases (s : State) :
    (s.dma.active = false ∧ s.btDmaDone = (s, true))
      ∨ (s.dma.active = true ∧ s.dma.done = false ∧ s.btDmaDone = (s, false))
      ∨ (s.dma.active = true ∧ s.dma.done = true
          ∧ s.btDmaDone = ({ s.emit [.cs true] with dma := { s.dma with active := false } }, true)) := by
  unfold State.btDmaDone
  cases s.dma.active <;> cases s.dma.done <;> simp

/-- `BT_DataDMA` (40_bus_transport.md R123): the lines, the trace and the record it leaves. -/
theorem btDataDma_effect (s : State) (addr n : Word) :
    s.btDataDma addr n = { s with
      cs := false, dc := true, trace := s.trace ++ [.cs false, .dc true],
      rx := { s.rx with cs := false, dc := true },
      dma := { active := true, done := decide (n = 0), base := addr, len := n, ptr := addr, rem := n } } := rfl

/-- DMA's turn (40_bus_transport.md R125): it has either sent one byte or, with nothing to send, done nothing. -/
theorem dmaTurn_cases (s : State) :
    (s.dma.active = true ∧ s.dma.rem ≠ 0 ∧ s.dmaTurn = s.dmaSend)
      ∨ ((s.dma.active = false ∨ s.dma.rem = 0) ∧ s.dmaTurn = s) := by
  unfold State.dmaTurn State.dmaEnabled
  by_cases hr : s.dma.rem = 0
  · exact .inr ⟨.inr hr, by simp [hr]⟩
  · cases ha : s.dma.active
    · exact .inr ⟨.inl rfl, by simp⟩
    · exact .inl ⟨rfl, hr, if_pos (by simpa using hr)⟩

/-- `MemRead` (20_memory.md R62): the bytes of a range inside engine memory, none for a range that leaves it. -/
theorem memRead_cases (s : State) (addr n : Nat) :
    (n ≤ s.cfg.memBytes ∧ addr ≤ s.cfg.memBytes - n ∧ s.memRead addr n = some (s.bytesAt addr n))
      ∨ ((s.cfg.memBytes < n ∨ s.cfg.memBytes - n < addr) ∧ s.memRead addr n = none) := by
  unfold State.memRead rangeInMem
  by_cases h : n ≤ s.cfg.memBytes ∧ addr ≤ s.cfg.memBytes - n
  · exact .inl ⟨h.1, h.2, by simp [h]⟩
  · exact .inr ⟨by omega, by rw [decide_eq_false h]; rfl⟩

/-! ### RX on a byte -/

/-- A byte on the link leaves the levels and the time counters of RX alone. -/
structure Rx.SameLines (r t : Rx) : Prop where
  cs : t.cs = r.cs
  dc : t.dc = r.dc
  rst : t.rst = r.rst
  holdMs : t.holdMs = r.holdMs
  settleMs : t.settleMs = r.settleMs

theorem pixel_sameLines (p : Params) (r : Rx) (px : Half) : r.SameLines (Rx.pixel p r px) := by
  unfold Rx.pixel Rx.advance
  split <;> (split <;> [(split <;> constructor <;> rfl); (constructor <;> rfl)])

theorem dataByte_sameLines (p : Params) (r : Rx) (b : Byte) : r.SameLines (Rx.dataByte p r b) := by
  unfold Rx.dataByte
  split
  · constructor <;> rfl
  · split
    · unfold Rx.pixelByte
      split
      · constructor <;> rfl
      · rename_i h _
        have := pixel_sameLines p { r with half := none } (pixelOf h b)
        exact ⟨this.cs, this.dc, this.rst, this.holdMs, this.settleMs⟩
    · unfold Rx.paramByte Rx.colParam Rx.rowParam Rx.orientParam
      dsimp only
      repeat' split
      all_goals constructor <;> rfl

theorem commandByte_sameLines (p : Params) (r : Rx) (b : Byte) : r.SameLines (Rx.commandByte p r b) := by
  unfold Rx.commandByte Rx.latchCommand Rx.beginWrite Rx.checkWindow
  dsimp only
  repeat' split
  all_goals constructor <;> rfl

theorem checkSettle_sameLines (r : Rx) : r.SameLines r.checkSettle := by
  unfold Rx.checkSettle
  split <;> constructor <;> rfl

theorem byte_sameLines (p : Params) (r : Rx) (b : Byte) : r.SameLines (Rx.byte p r b) := by
  unfold Rx.byte
  have hs := checkSettle_sameLines r
  split
  · constructor <;> rfl
  · split
    · constructor <;> rfl
    · split
      · have h := dataByte_sameLines p r.checkSettle b
        exact ⟨h.cs.trans hs.cs, h.dc.trans hs.dc, h.rst.trans hs.rst, h.holdMs.trans hs.holdMs,
          h.settleMs.trans hs.settleMs⟩
      · have h := commandByte_sameLines p r.checkSettle b
        exact ⟨h.cs.trans hs.cs, h.dc.trans hs.dc, h.rst.trans hs.rst, h.holdMs.trans hs.holdMs,
          h.settleMs.trans hs.settleMs⟩

/-- Bytes one after the other leave the levels and the time counters of RX alone. -/
theorem bytes_sameLines (p : Params) (r : Rx) (bs : List Byte) : r.SameLines (bs.foldl (Rx.byte p) r) := by
  induction bs generalizing r with
  | nil => constructor <;> rfl
  | cons b bs ih =>
    have h := byte_sameLines p r b
    have h' := ih (Rx.byte p r b)
    exact ⟨h'.cs.trans h.cs, h'.dc.trans h.dc, h'.rst.trans h.rst, h'.holdMs.trans h.holdMs,
      h'.settleMs.trans h.settleMs⟩

/-! ### RX on a bracket -/

/-- `TX` events one after the other are RX's byte steps. -/
theorem events_map_tx (p : Params) (r : Rx) (bs : List Byte) :
    Rx.events p r (bs.map Event.tx) = bs.foldl (Rx.byte p) r := by
  simp [Rx.events, List.foldl_map, Rx.event]

/-- RX on a command bracket outside reset (41_receiver.md R144, R146). -/
theorem rx_btCmd (p : Params) (r : Rx) (b : Byte) (h : r.rst = true) :
    Rx.events p r (btCmd b)
      = { Rx.commandByte p { r with cs := false, dc := false }.checkSettle b with cs := true } := by
  simp [btCmd, Rx.event, Rx.byte, h]

/-- RX on a data bracket (41_receiver.md R144, R153). -/
theorem rx_btData (p : Params) (r : Rx) (bs : List Byte) :
    Rx.events p r (btData bs)
      = { bs.foldl (Rx.byte p) { r with cs := false, dc := true } with cs := true } := by
  simp [btData, Rx.event, events_map_tx]

/-- RX on a byte inside a data bracket, outside reset (41_receiver.md R144). -/
theorem byte_of_data (p : Params) (r : Rx) (b : Byte) (hc : r.cs = false) (hd : r.dc = true) (hr : r.rst = true) :
    Rx.byte p r b = Rx.dataByte p r.checkSettle b := by
  simp [Rx.byte, hc, hd, hr]

/-- RX on bytes while the reset line is low (41_receiver.md R143). -/
theorem bytes_in_reset (p : Params) (r : Rx) (bs : List Byte) (h : r.rst = false) :
    bs.foldl (Rx.byte p) r = r := by
  induction bs with
  | nil => rfl
  | cons b bs ih =>
    have : Rx.byte p r b = r := by unfold Rx.byte; split <;> simp
    rw [List.foldl_cons, this, ih]

/-! ### The form of the panel memory -/

theorem pixel_keeps_gram_wf {p : Params} {r : Rx} (h : Gram.wf p r.gram = true) (px : Half) :
    Gram.wf p (Rx.pixel p r px).gram = true := by
  have ha : ∀ r : Rx, r.advance.gram = r.gram := by
    intro r; unfold Rx.advance; repeat' split
    all_goals rfl
  unfold Rx.pixel
  split
  · rw [ha]; exact setCell_keeps_wf h _ _ _
  · rw [ha]; exact h

theorem event_keeps_gram_wf {p : Params} {r : Rx} (h : Gram.wf p r.gram = true) (e : Event) :
    Gram.wf p (Rx.event p r e).gram = true := by
  have hs : ∀ r : Rx, r.checkSettle.gram = r.gram := by
    intro r; unfold Rx.checkSettle; split <;> rfl
  cases e with
  | cs l => exact h
  | dc l => exact h
  | wait ms => unfold Rx.event Rx.wait; dsimp only; split <;> exact h
  | rst l =>
    unfold Rx.event Rx.resetLine; dsimp only
    split
    · exact h
    · split
      · unfold Rx.resetRelease; dsimp only; split <;> exact h
      · exact unwritten_wf p
  | tx b =>
    unfold Rx.event Rx.byte; dsimp only
    split
    · exact h
    split
    · exact h
    split
    · unfold Rx.dataByte
      split
      · rw [← hs r] at h; exact h
      split
      · unfold Rx.pixelByte
        split
        · rw [← hs r] at h; exact h
        · exact pixel_keeps_gram_wf (by rw [← hs r] at h; exact h) _
      · rw [← hs r] at h
        unfold Rx.paramByte Rx.colParam Rx.rowParam Rx.orientParam
        dsimp only
        repeat' split
        all_goals exact h
    · rw [← hs r] at h
      unfold Rx.commandByte Rx.latchCommand Rx.beginWrite Rx.checkWindow
      dsimp only
      repeat' split
      all_goals exact h

/-- Every list of events keeps the form of the panel memory. -/
theorem events_keep_gram_wf {p : Params} {r : Rx} (h : Gram.wf p r.gram = true) (es : List Event) :
    Gram.wf p (Rx.events p r es).gram = true := by
  induction es generalizing r with
  | nil => exact h
  | cons e es ih => exact ih (event_keeps_gram_wf h e)

/-! ### The Panel Driver's procedures -/

/-- Playing the init table is one emission, with `seq_idx` at the last entry sent (42_panel_driver.md R172). -/
theorem playTable_eq (s : State) (i : Nat) (es : List InitEntry) :
    s.playTable i es = { s.emit (es.flatMap entryEvents) with
      seqIdx := if es = [] then s.seqIdx else BitVec.ofNat 8 (i + es.length - 1) } := by
  induction es generalizing s i with
  | nil => simp [State.playTable]
  | cons e es ih =>
    rw [State.playTable, ih]
    have : i + 1 + es.length - 1 = i + (e :: es).length - 1 := by simp
    simp only [State.emit, List.flatMap_cons, List.foldl_append, Rx.events_append, List.append_assoc, this]
    cases es with
    | nil => simp
    | cons f fs => simp

/-- PD_INIT's sequence is one emission and the state it leaves (42_panel_driver.md R172, R173). -/
theorem initSequence_eq (s : State) :
    s.initSequence = { s.emit (resetPulse s.cfg.toParams ++ s.cfg.initTable.flatMap entryEvents
        ++ orientCommand s.cfg.toParams (orientByte s.cfg.toParams s.cfg.defaultRotation)
        ++ displayOnEvents s.cfg.toParams) with
      pdState := .ready,
      seqIdx := if s.cfg.initTable = [] then s.seqIdx else BitVec.ofNat 8 (s.cfg.initTable.length - 1),
      rot := s.cfg.defaultRotation, orient := orientByte s.cfg.toParams s.cfg.defaultRotation,
      effW := rotW s.cfg.toParams s.cfg.defaultRotation,
      effH := rotH s.cfg.toParams s.cfg.defaultRotation } := by
  unfold State.initSequence
  simp only [playTable_eq, State.applyRotation, State.setRotation, State.emit, List.foldl_append,
    Rx.events_append, List.append_assoc, Nat.zero_add]

/-- The batches of a fill (42_panel_driver.md R178): they add up to the fill, none is empty or longer than `B`, and only
the last may be shorter. -/
theorem batches_spec (B : Nat) (hB : 1 ≤ B) (fuel n : Nat) (h : n ≤ fuel) :
    (batches B fuel n).sum = n ∧ (∀ k ∈ batches B fuel n, 1 ≤ k ∧ k ≤ B)
      ∧ ∀ k ∈ (batches B fuel n).dropLast, k = B := by
  induction fuel generalizing n with
  | zero =>
    have : n = 0 := by omega
    simp [batches, this]
  | succ fuel ih =>
    rw [batches]
    split
    · rename_i h0; simp [h0]
    · obtain ⟨h1, h2, h3⟩ := ih (n - min B n) (by omega)
      refine ⟨by rw [List.sum_cons, h1]; omega, ?_, ?_⟩
      · intro k hk
        rcases List.mem_cons.1 hk with rfl | hk
        · omega
        · exact h2 k hk
      · intro k hk
        cases hb : batches B fuel (n - min B n) with
        | nil => simp [hb] at hk
        | cons c cs =>
          rw [hb, List.dropLast_cons_of_ne_nil (by simp)] at hk
          rcases List.mem_cons.1 hk with rfl | hk
          · by_contra hne
            have hz : n - min B n = 0 := by omega
            rw [hz] at hb
            cases fuel <;> simp [batches] at hb
          · exact h3 k (by rw [hb]; exact hk)

/-- How the meaning of PD_WRDATA and its alias can end (42_panel_driver.md R177): refused with nothing changed, or with the
bytes of the range sent in one data bracket. -/
theorem writeData_cases (addr len : Word) (s : State) :
    ((s.pdState ≠ .ready ∨ s.cfg.memBytes < len.toNat ∨ s.cfg.memBytes - len.toNat < addr.toNat)
        ∧ writeData addr len s = s.refuse)
      ∨ (s.pdState = .ready ∧ len.toNat ≤ s.cfg.memBytes ∧ addr.toNat ≤ s.cfg.memBytes - len.toNat
        ∧ writeData addr len s = (s.emit (btData (s.bytesAt addr.toNat len.toNat))).done 1) := by
  unfold writeData
  by_cases hr : s.pdState = .ready
  · rcases memRead_cases s addr.toNat len.toNat with ⟨h1, h2, h⟩ | ⟨h1, h⟩
    · exact .inr ⟨hr, h1, h2, by simp [hr, h]⟩
    · exact .inl ⟨.inr h1, by simp [hr, h]⟩
  · exact .inl ⟨.inl hr, by simp [hr]⟩

end Sys2Proof.Machine
end

