-- ==== Sys2Proof/Laws/PerInstr.lean ====
section
/-! SUPPORT. Statements about every instruction, one lemma a constructor. -/

namespace Sys2Proof.Laws

open Sys2Proof Sys2Proof.Machine

/-- The value that selects an instruction's row of the opcode table: the opcode of a host operation
(30_encoding.md R92, R98, R111), the command byte of a wire command (30_encoding.md R101). -/
def rowKey (p : Params) : Instr → Byte
  | .fbInit => 0x10
  | .fbFill _ => 0x11
  | .fbSetpixel _ _ _ => 0x12
  | .fbDrawline _ _ _ _ => 0x13
  | .fbSwap => 0x14
  | .fbPresent => 0x15
  | .pdInit _ => 0x20
  | .pdSetrot _ => 0x21
  | .pdSetwin _ _ _ _ => 0x22
  | .pdWrdata _ _ => 0x23
  | .pdFillrect _ _ _ _ _ => 0x24
  | .pdDrawpixel _ _ _ => 0x25
  | .pdSenddma _ => 0x26
  | .pdDmadone => 0x27
  | .pdGetw => 0x28
  | .pdGeth => 0x29
  | .pdWrpixels _ _ => 0x23
  | .reserved op => op
  | .columnRange _ => p.opColrange
  | .rowRange _ => p.opRowrange
  | .beginMemoryWrite _ => p.opMemwrite
  | .orientation _ => p.opOrient
  | .displayOn _ => p.opDispon
  | .vendor cmd _ => cmd

/-- The field of an encoded instruction that selects its row: `op` of a command word (30_encoding.md R92), the first byte
of a wire command (30_encoding.md R105). -/
def codeKey : Code → Option Byte
  | .cw w => some (cwOp w)
  | .wire bytes => bytes.head?

/-- The code is a command word, not bytes of the wire. -/
def isCommandWord : Code → Bool
  | .cw _ => true
  | .wire _ => false

/-- An instruction is encoded in its own row: in the format and with the opcode or command byte that the opcode table
gives it (30_encoding.md R92, R101). -/
def EncodingRow.Statement (i : Instr) : Prop :=
  ∀ p : Params, codeKey (encode p i) = some (rowKey p i) ∧ isCommandWord (encode p i) = hostOperation i

theorem EncodingRow.fbInit : EncodingRow.Statement .fbInit :=
  fun _ => ⟨by simp [encode, codeKey, rowKey], rfl⟩

theorem EncodingRow.fbFill (color : Half) : EncodingRow.Statement (.fbFill color) :=
  fun _ => ⟨by simp [encode, codeKey, rowKey], rfl⟩

theorem EncodingRow.fbSetpixel (x y : Word) (color : Half) : EncodingRow.Statement (.fbSetpixel x y color) :=
  fun _ => ⟨by simp [encode, codeKey, rowKey], rfl⟩

theorem EncodingRow.fbDrawline (x y len : Word) (color : Half) : EncodingRow.Statement (.fbDrawline x y len color) :=
  fun _ => ⟨by simp [encode, codeKey, rowKey], rfl⟩

theorem EncodingRow.fbSwap : EncodingRow.Statement .fbSwap :=
  fun _ => ⟨by simp [encode, codeKey, rowKey], rfl⟩

theorem EncodingRow.fbPresent : EncodingRow.Statement .fbPresent :=
  fun _ => ⟨by simp [encode, codeKey, rowKey], rfl⟩

theorem EncodingRow.pdInit (handle : Word) : EncodingRow.Statement (.pdInit handle) :=
  fun _ => ⟨by simp [encode, codeKey, rowKey], rfl⟩

theorem EncodingRow.pdSetrot (r : BitVec 2) : EncodingRow.Statement (.pdSetrot r) :=
  fun _ => ⟨by simp [encode, codeKey, rowKey], rfl⟩

theorem EncodingRow.pdSetwin (x0 y0 x1 y1 : Half) : EncodingRow.Statement (.pdSetwin x0 y0 x1 y1) :=
  fun _ => ⟨by simp [encode, codeKey, rowKey], rfl⟩

theorem EncodingRow.pdWrdata (addr len : Word) : EncodingRow.Statement (.pdWrdata addr len) :=
  fun _ => ⟨by simp [encode, codeKey, rowKey], rfl⟩

theorem EncodingRow.pdFillrect (x y w h : Word) (color : Half) : EncodingRow.Statement (.pdFillrect x y w h color) :=
  fun _ => ⟨by simp [encode, codeKey, rowKey], rfl⟩

theorem EncodingRow.pdDrawpixel (x y : Word) (color : Half) : EncodingRow.Statement (.pdDrawpixel x y color) :=
  fun _ => ⟨by simp [encode, codeKey, rowKey], rfl⟩

theorem EncodingRow.pdSenddma (addr : Word) : EncodingRow.Statement (.pdSenddma addr) :=
  fun _ => ⟨by simp [encode, codeKey, rowKey], rfl⟩

theorem EncodingRow.pdDmadone : EncodingRow.Statement .pdDmadone :=
  fun _ => ⟨by simp [encode, codeKey, rowKey], rfl⟩

theorem EncodingRow.pdGetw : EncodingRow.Statement .pdGetw :=
  fun _ => ⟨by simp [encode, codeKey, rowKey], rfl⟩

theorem EncodingRow.pdGeth : EncodingRow.Statement .pdGeth :=
  fun _ => ⟨by simp [encode, codeKey, rowKey], rfl⟩

theorem EncodingRow.pdWrpixels (addr len : Word) : EncodingRow.Statement (.pdWrpixels addr len) :=
  fun _ => ⟨by simp [encode, codeKey, rowKey], rfl⟩

theorem EncodingRow.reserved (op : Byte) : EncodingRow.Statement (.reserved op) :=
  fun _ => ⟨by simp [encode, codeKey, rowKey], rfl⟩

theorem EncodingRow.columnRange (data : List Byte) : EncodingRow.Statement (.columnRange data) :=
  fun _ => ⟨rfl, rfl⟩

theorem EncodingRow.rowRange (data : List Byte) : EncodingRow.Statement (.rowRange data) :=
  fun _ => ⟨rfl, rfl⟩

theorem EncodingRow.beginMemoryWrite (data : List Byte) : EncodingRow.Statement (.beginMemoryWrite data) :=
  fun _ => ⟨rfl, rfl⟩

theorem EncodingRow.orientation (data : List Byte) : EncodingRow.Statement (.orientation data) :=
  fun _ => ⟨rfl, rfl⟩

theorem EncodingRow.displayOn (data : List Byte) : EncodingRow.Statement (.displayOn data) :=
  fun _ => ⟨rfl, rfl⟩

theorem EncodingRow.vendor (cmd : Byte) (data : List Byte) : EncodingRow.Statement (.vendor cmd data) :=
  fun _ => ⟨rfl, rfl⟩

/-- Whatever a command word holds, the command decoder answers a host operation (30_encoding.md R92, R98). -/
theorem hostOperation_decodeCw (k : ProfileKind) (w : CommandWord) : hostOperation (decodeCw k w) = true := by
  unfold decodeCw decodeOperation
  simp only [apply_ite hostOperation]
  simp only [hostOperation, ite_self]

end Sys2Proof.Laws
end

