-- ==== Sys2Proof/Tests/Slice0.lean ====
section
/-! SUPPORT. Tests. Expected values are those of spec/95_test_vectors.md (the vector is named) or written out by hand
from the rule named; the theorems `witness_...` show that the hypotheses of an obligation can be met. -/

namespace Sys2Proof.Tests

-- One theorem after the other: side by side, their kernel evaluations take more threads than the checker has.
set_option Elab.async false

open Sys2Proof Sys2Proof.Machine

/-! ### Well-formedness: one ill-formed term for each check -/

/-- REFCFG with the minimal profile (00_scope.md R18). -/
def minimalParams : Params := { Params.ref with profile := .minimal }

def minimal : Config := { minimalParams with ok := by decide }

/-- 00_scope.md R18: the eight operations, and the alias, that the minimal profile does not have. -/
theorem test_minimal_refuses :
    [Instr.fbInit, .fbFill 0, .fbSetpixel 0 0 0, .fbDrawline 0 0 0 0, .fbSwap, .fbPresent, .pdWrdata 0 0,
      .pdWrpixels 0 0, .pdSenddma 0].all (fun i => !WellFormed minimalParams i && WellFormed Params.ref i) = true := by
  decide

/-- 30_encoding.md R98: an opcode of the map is no RESERVED instruction, unless the minimal profile reserves it. -/
theorem test_reserved_wf :
    WellFormed Params.ref (.reserved 0x10) = false ∧ WellFormed Params.ref (.reserved 0x29) = false
      ∧ WellFormed Params.ref (.reserved 0x2A) = true ∧ WellFormed minimalParams (.reserved 0x10) = true
      ∧ WellFormed minimalParams (.reserved 0x20) = false := by decide

/-- 41_receiver.md R152: a named command byte is no vendor command. -/
theorem test_vendor_wf :
    WellFormed Params.ref (.vendor 0x2C []) = false ∧ WellFormed Params.ref (.vendor 0x3A []) = true := by decide

/-- 00_scope.md R11 (a). -/
theorem test_wf_commands : Params.wf { Params.ref with opOrient := 0x2A } = false := by decide
/-- 00_scope.md R11 (b). -/
theorem test_wf_masks :
    Params.wf { Params.ref with maskRo := 0xC0 } = false ∧ Params.wf { Params.ref with maskRo := 0x40 } = false := by
  decide
/-- 00_scope.md R11 (c). -/
theorem test_wf_orient_bits : Params.wf { Params.ref with colorOrderBit := 0x04 } = false := by decide
/-- 00_scope.md R11 (d): rotation 1 without the exchange flag. -/
theorem test_wf_exchange : Params.wf { Params.ref with orientTable := ⟨0x00, 0x40, 0xC0, 0xA0⟩ } = false := by decide
/-- 00_scope.md R7. -/
theorem test_wf_panel : Params.wf { Params.ref with panelW := 65536 } = false := by decide +kernel
/-- 00_scope.md R8. -/
theorem test_wf_table :
    Params.wf { Params.ref with initTable := [⟨0x01, List.replicate 128 0, none⟩] } = false := by decide +kernel
/-- 00_scope.md R9, R10. -/
theorem test_wf_bounds :
    Params.wf { Params.ref with tRstHold := 9 } = false ∧ Params.wf { Params.ref with memBytes := 81919 } = false := by
  decide

/-! ### Decoding: a word written out from the encoding (30_encoding.md R90, R92, R93, R101) for every constructor -/

/-- The FB opcodes; V-E2, V-E9, V-E10. -/
theorem test_decode_fb :
    decodeTableWord 168 0x100000000000000000000000000000000000000000 = some .fbInit
      ∧ decodeTableWord 168 0x111234F80000000000000000000000000000000000 = some (.fbFill 0xF800)
      ∧ decodeTableWord 168 0x1200000002000000010000F8000000000000000000 = some (.fbSetpixel 2 1 0xF800)
      ∧ decodeTableWord 168 0x13000000000000000200000003000007E000000000 = some (.fbDrawline 0 2 3 0x07E0)
      ∧ decodeTableWord 168 0x14FFFFFFFFFFFFFFFFFFFFFFFFFFFFFFFFFFFFFFFF = some .fbSwap
      ∧ decodeTableWord 168 0x150000000000000000000000000000000000000000 = some .fbPresent := by decide +kernel

/-- The PD opcodes; V-E1, V-E3, V-E4, V-E11. -/
theorem test_decode_pd :
    decodeTableWord 168 0x200000000100000000000000000000000000000000 = some (.pdInit 1)
      ∧ decodeTableWord 168 0x210000000500000000000000000000000000000000 = some (.pdSetrot 1)
      ∧ decodeTableWord 168 0x2200010002000000010000000300000002FFFFFFFF = some (.pdSetwin 2 1 3 2)
      ∧ decodeTableWord 168 0x230000001800000004000000000000000000000000 = some (.pdWrdata 24 4)
      ∧ decodeTableWord 168 0x240000009F000000000000000A000000010000001F = some (.pdFillrect 159 0 10 1 0x001F)
      ∧ decodeTableWord 168 0x2500000005000000070000F8000000000000000000 = some (.pdDrawpixel 5 7 0xF800)
      ∧ decodeTableWord 168 0x260000001800000000000000000000000000000000 = some (.pdSenddma 24)
      ∧ decodeTableWord 168 0x270000000000000000000000000000000000000000 = some .pdDmadone
      ∧ decodeTableWord 168 0x280000000000000000000000000000000000000000 = some .pdGetw
      ∧ decodeTableWord 168 0x290000000000000000000000000000000000000000 = some .pdGeth := by decide +kernel

/-- V-E5, V-E6, V-E7, V-E8. -/
theorem test_decode_reserved :
    decodeTableWord 168 0 = some (.reserved 0x00)
      ∧ decodeTableWord 168 0x2A0000000100000002000000030000000400000005 = some (.reserved 0x2A)
      ∧ decodeTableWord 168 (2 ^ 168 - 1) = some (.reserved 0xFF)
      ∧ decodeCw .minimal (packCw 0x11 0 0 0 0 0) = .reserved 0x11 := by decide +kernel

/-- The wire commands of REFCFG, command byte first (30_encoding.md R101, R102, R103). -/
theorem test_decode_wire :
    decodeTableWord 40 0x9F0000002A = some (.columnRange [0x00, 0x00, 0x00, 0x9F])
      ∧ decodeTableWord 40 0x7F0000002B = some (.rowRange [0x00, 0x00, 0x00, 0x7F])
      ∧ decodeTableWord 24 0x00F82C = some (.beginMemoryWrite [0xF8, 0x00])
      ∧ decodeTableWord 16 0x6836 = some (.orientation [0x68])
      ∧ decodeTableWord 8 0x29 = some (.displayOn [])
      ∧ decodeTableWord 16 0x053A = some (.vendor 0x3A [0x05]) := by decide +kernel

/-- V-E3: the alias assembles to PD_WRDATA's word (30_encoding.md R111), and its encoding is that word. -/
theorem test_alias :
    assemble .PD_WRPIXELS [24, 4] = assemble .PD_WRDATA [24, 4]
      ∧ encode Params.ref (.pdWrpixels 24 4) = .cw 0x230000001800000004000000000000000000000000 := by decide +kernel

/-- V-E1: the assembled word. -/
theorem test_assemble :
    assemble .PD_FILLRECT [159, 0, 10, 1, 0x001F] = some 0x240000009F000000000000000A000000010000001F
      ∧ assemble .PD_FILLRECT [159, 0, 10, 1] = none := by decide +kernel

/-- V-E13, V-E14, V-E15: the ROM of an init table. -/
theorem test_rom :
    romEncode Params.ref.initTable = [0x03, 0x01, 0x80, 0x00, 0x96, 0x11, 0x80, 0x00, 0x78, 0x3A, 0x01, 0x05]
      ∧ romDecode [0x01, 0xB1, 0x83, 0x01, 0x2C, 0x2D, 0x00, 0x00]
          = some [⟨0xB1, [0x01, 0x2C, 0x2D], some 0⟩]
      ∧ romEncode [] = [0x00] := by decide +kernel

/-! ### Small states -/

/-- The state an instruction answers, or the state it began in. -/
def after (i : Instr) (s : State) : State :=
  match exec i s with
  | .next t => t
  | .fault _ => s
  | .refused _ => s

/-- The events that an instruction adds to the trace. -/
def eventsOf (i : Instr) (s : State) : List Event := newEvents s (after i s)

/-- The bytes listed in engine memory. -/
def listed (s : State) (a n : Nat) : List (Option Byte) := (List.range n).map (fun k => cellGet s.mem (a + k))

/-- TINYCFG right after reset. -/
def tiny : State := State.resetOf Config.tiny

/-- TINYCFG in the Ready state of the vectors. -/
def ready : State := after (.pdInit 1) tiny

/-- TINYCFG in the framed state of the vectors. -/
def framed : State := after .fbInit ready

/-- A transfer of buffer 1, the back buffer, in flight. -/
def sending : State := after (.pdSenddma 24) framed

/-- A transfer of buffer 0, the front buffer, in flight: the back buffer is free. -/
def sendingFront : State := after (.pdSenddma 0) framed

/-- A transfer whose last byte has gone out. -/
def sent : State := { sending with dma := { sending.dma with ptr := 48, rem := 0, done := true } }

/-- REFCFG in the Ready state. -/
def readyRef : State := after (.pdInit 1) State.reset

/-- With an operation accepted. -/
def accepted (i : Instr) (s : State) : State :=
  match encode s.cfg.toParams i with
  | .cw w => s.accept w
  | .wire _ => s

/-! ### Instructions, at least one test each -/

/-- V-PD1. -/
theorem test_pd_init :
    eventsOf (.pdInit 1) tiny =
      [.rst false, .wait 10, .rst true, .wait 120,
        .cs false, .dc false, .tx 0x01, .cs true, .wait 150, .cs false, .dc false, .tx 0x11, .cs true, .wait 120,
        .cs false, .dc false, .tx 0x3A, .cs true, .cs false, .dc true, .tx 0x05, .cs true,
        .cs false, .dc false, .tx 0x36, .cs true, .cs false, .dc true, .tx 0x08, .cs true,
        .cs false, .dc false, .tx 0x29, .cs true, .wait 100]
      ∧ ready.pdState = .ready ∧ ready.seqIdx = 2 ∧ ready.orient = 0x08 ∧ ready.rx.settleMs = 490
      ∧ ready.rx.vendorLog = [[0x01], [0x11], [0x3A, 0x05]] ∧ ready.rsp = 1 := by decide +kernel

/-- V-PD2 and V-PD3: refusals of PD_INIT. -/
theorem test_pd_init_refused :
    after (.pdInit 0) tiny = tiny.answered 0 ∧ after (.pdInit 1) ready = ready.answered 0 := by decide +kernel

/-- V-FB1, P1: FB_INIT. -/
theorem test_fb_init :
    txBytes (eventsOf .fbInit ready)
        = [0x2A, 0, 0, 0, 3, 0x2B, 0, 0, 0, 2, 0x2C] ++ List.replicate 24 0
      ∧ listed framed 0 48 = List.replicate 48 (some 0) ∧ framed.trace.length = 88
      ∧ framed.rx.gram = List.replicate 3 (List.replicate 4 (some 0)) ∧ framed.rx.viol = Viol.clear := by
  decide +kernel

/-- V-FB2: FB_FILL. -/
theorem test_fb_fill :
    listed (after (.fbFill 0x07E0) framed) 22 6 = [some 0, some 0, some 0x07, some 0xE0, some 0x07, some 0xE0]
      ∧ listed (after (.fbFill 0x07E0) framed) 46 3 = [some 0x07, some 0xE0, none] := by decide +kernel

/-- V-FB4: a drawing operation refused while the back buffer is owned. -/
theorem test_fb_fill_owned :
    sending.owned = true ∧ after (.fbFill 0x1111) sending = sending.answered 0
      ∧ sendingFront.owned = false ∧ (after (.fbFill 0x1111) sendingFront).rsp = 1 := by decide +kernel

/-- P2 step 2, and the drop of V-FB2. -/
theorem test_fb_setpixel :
    listed (after (.fbSetpixel 2 1 0xF800) framed) 35 4 = [some 0, some 0xF8, some 0x00, some 0]
      ∧ after (.fbSetpixel 4 0 0xF800) framed = { framed with diagOob := 1, rsp := 1 } := by decide +kernel

/-- V-FB2: the clamp to the end of the row; and `len = 0`, which is no clamp. -/
theorem test_fb_drawline :
    listed (after (.fbDrawline 2 0 10 0x07E0) framed) 27 7
        = [some 0, some 0x07, some 0xE0, some 0x07, some 0xE0, some 0, some 0]
      ∧ (after (.fbDrawline 2 0 10 0x07E0) framed).diagOob = 1
      ∧ after (.fbDrawline 1 2 0 0x2222) framed = framed := by decide +kernel

/-- 43_framebuffer.md R206. -/
theorem test_fb_swap : after .fbSwap framed = { framed with front := 1 } := by decide +kernel

/-- P2: draw, swap, present. -/
theorem test_fb_present :
    let s := after .fbSwap (after (.fbDrawline 0 2 3 0x07E0) (after (.fbSetpixel 2 1 0xF800) framed))
    txBytes (eventsOf .fbPresent s)
        = [0x2A, 0, 0, 0, 3, 0x2B, 0, 0, 0, 2, 0x2C, 0, 0, 0, 0, 0, 0, 0, 0, 0, 0, 0, 0, 0xF8, 0, 0, 0,
            0x07, 0xE0, 0x07, 0xE0, 0x07, 0xE0, 0, 0]
      ∧ (after .fbPresent s).rx.gram
          = [[some 0, some 0, some 0, some 0], [some 0, some 0, some 0xF800, some 0],
              [some 0x07E0, some 0x07E0, some 0x07E0, some 0]] := by decide +kernel

/-- V-PD4. -/
theorem test_pd_setrot :
    eventsOf (.pdSetrot 1) ready = [.cs false, .dc false, .tx 0x36, .cs true, .cs false, .dc true, .tx 0x68, .cs true]
      ∧ (after (.pdSetrot 1) ready).effW = 3 ∧ (after (.pdSetrot 1) ready).effH = 4
      ∧ (after (.pdSetrot 1) ready).rx.orient = 0x68 := by decide +kernel

/-- V-PD5: a valid window and an invalid one. -/
theorem test_pd_setwin :
    txBytes (eventsOf (.pdSetwin 2 1 3 2) ready) = [0x2A, 0, 2, 0, 3, 0x2B, 0, 1, 0, 2, 0x2C]
      ∧ (after (.pdSetwin 2 1 3 2) ready).rx.viol = Viol.clear
      ∧ (after (.pdSetwin 0 0 4 2) ready).rx.viol = { Viol.clear with window := true } := by decide +kernel

/-- V-PD6: in range, an empty range at the end, and ranges that leave engine memory. -/
theorem test_pd_wrdata :
    eventsOf (.pdWrdata 24 2) framed = [.cs false, .dc true, .tx 0, .tx 0, .cs true]
      ∧ eventsOf (.pdWrdata 48 0) framed = [.cs false, .dc true, .cs true]
      ∧ after (.pdWrdata 49 0) framed = framed.answered 0 ∧ after (.pdWrdata 0xFFFFFFFF 2) framed = framed.answered 0 := by
  decide +kernel

/-- 30_encoding.md R111. -/
theorem test_pd_wrpixels : after (.pdWrpixels 24 2) framed = after (.pdWrdata 24 2) framed := by decide +kernel

/-- P4 step 5. -/
theorem test_pd_fillrect :
    let s := after (.pdSetrot 1) ready
    txBytes (eventsOf (.pdFillrect 1 2 5 5 0x001F) s)
        = [0x2A, 0, 1, 0, 2, 0x2B, 0, 2, 0, 3, 0x2C, 0, 0x1F, 0, 0x1F, 0, 0x1F, 0, 0x1F]
      ∧ (after (.pdFillrect 1 2 5 5 0x001F) s).diagOob = 1
      ∧ (after (.pdFillrect 1 2 5 5 0x001F) s).rx.gram
          = [[none, none, none, none], [some 0x001F, some 0x001F, none, none],
              [some 0x001F, some 0x001F, none, none]] := by decide +kernel

/-- V-PD8: 32 pixels go one by one, 33 in one batch (REFCFG). -/
theorem test_pd_fillrect_threshold :
    bracketsOpened (eventsOf (.pdFillrect 0 0 32 1 0) readyRef) = 37
      ∧ bracketsOpened (eventsOf (.pdFillrect 0 0 33 1 0) readyRef) = 6
      ∧ bracketsOpened (eventsOf (.pdFillrect 0 0 65 1 0) readyRef) = 7 := by decide +kernel

/-- V-PD9. -/
theorem test_pd_drawpixel :
    txBytes (eventsOf (.pdDrawpixel 2 1 0xF800) ready) = [0x2A, 0, 2, 0, 2, 0x2B, 0, 1, 0, 1, 0x2C, 0xF8, 0]
      ∧ (after (.pdDrawpixel 2 1 0xF800) ready).rx.cell 2 1 = some 0xF800
      ∧ after (.pdDrawpixel 4 0 0xFFFF) ready = { ready with diagOob := 1 } := by decide +kernel

/-- V-PD10, P3 step 3. -/
theorem test_pd_senddma :
    txBytes (eventsOf (.pdSenddma 24) framed) = [0x2A, 0, 0, 0, 3, 0x2B, 0, 0, 0, 2, 0x2C]
      ∧ sending.dma = { active := true, done := false, base := 24, len := 24, ptr := 24, rem := 24 }
      ∧ sending.cs = false ∧ sending.pdState = .busy ∧ sending.rsp = 1
      ∧ after (.pdSenddma 25) framed = framed.answered 0 ∧ after (.pdSenddma 0) sending = sending.answered 0 := by
  decide +kernel

/-- P3 steps 5 and 8. -/
theorem test_pd_dmadone :
    after .pdDmadone sending = sending.answered 0 ∧ eventsOf .pdDmadone sent = [.cs true]
      ∧ (after .pdDmadone sent).pdState = .ready ∧ (after .pdDmadone sent).rsp = 1
      ∧ (after .pdDmadone ready).rsp = 1 := by decide +kernel

/-- P4 steps 3 and 4. -/
theorem test_pd_getters :
    let s := after (.pdSetrot 1) ready
    (after .pdGetw s).rsp = 3 ∧ (after .pdGeth s).rsp = 4 := by decide +kernel

/-- V-E6. -/
theorem test_reserved : after (.reserved 0x2A) ready = ready.answered 0 := by decide +kernel

/-- V-G19: parameters beyond the fourth are ignored, vendor data is logged, data after display-on is ignored. -/
theorem test_wire_column_vendor_display :
    let s := after (.displayOn [0x07]) (after (.vendor 0xB1 [1, 2, 3]) (after (.columnRange [0, 1, 0, 2, 9, 9]) ready))
    s.rx.xs = 1 ∧ s.rx.xe = 2 ∧ s.rx.vendorLog.getLast? = some [0xB1, 1, 2, 3] ∧ s.rx.dispOn = true
      ∧ s.rx.viol = Viol.clear := by decide +kernel

/-- V-G10, V-G11, V-G13: window, orientation, the pixel stream, half a pixel. -/
theorem test_wire_stream :
    let s := after (.rowRange [0, 1, 0, 2]) (after (.columnRange [0, 2, 0, 3]) (after (.orientation [0x08]) ready))
    let t := after (.beginMemoryWrite [0, 1, 0, 2, 0, 3, 0, 4]) s
    t.rx.gram = [[none, none, none, none], [none, none, some 1, some 2], [none, none, some 3, some 4]]
      ∧ t.rx.col = 2 ∧ t.rx.row = 1 ∧ (after (.beginMemoryWrite [0xAB]) s).rx.half = some 0xAB := by decide +kernel

/-- V-G15: a command byte drops half a pixel. V-G4: nothing is taken in reset. -/
theorem test_wire_half_and_reset :
    (after (.beginMemoryWrite []) (after (.beginMemoryWrite [0xAB]) ready)).rx.viol = { Viol.clear with half := true }
      ∧ (after (.displayOn []) { tiny with rx := Rx.event Params.tiny tiny.rx (.rst false) }).rx.dispOn = false := by
  decide +kernel

/-- 41_receiver.md R157's examples. -/
theorem test_map :
    panelMap Params.ref 0x08 5 7 = some (5, 7) ∧ panelMap Params.ref 0x68 5 7 = some (152, 5)
      ∧ panelMap Params.ref 0xC8 5 7 = some (154, 120) ∧ panelMap Params.ref 0xA8 5 7 = some (7, 122)
      ∧ panelMap Params.ref 0x08 160 0 = none := by decide +kernel

/-! ### Steps -/

/-- The next state of a step, or the state it began in. -/
def afterStep (s : State) : State :=
  match step s with
  | .next t => t
  | .fault _ => s
  | .refused _ => s

/-- A word placed where the step fetches is the first instruction run after reset. -/
theorem test_fetch_first :
    (afterStep (State.reset.withFetchWord 168 0x14FFFFFFFFFFFFFFFFFFFFFFFFFFFFFFFFFFFFFFFF)).front = 1
      ∧ (afterStep (State.reset.withFetchWord 8 0x29)).rx.dispOn = true
      ∧ (afterStep (State.reset.withFetchWord 168 0)).rsp = 0 := by decide +kernel

/-- A DMA step of P3, and none once the transfer is done (40_bus_transport.md R125). -/
theorem test_dma_step :
    let s := { sending with inputs := [.dmaStep] }
    newEvents s (afterStep s) = [.tx 0] ∧ (afterStep s).dma.ptr = 25 ∧ (afterStep s).dma.rem = 23
      ∧ newEvents sent (afterStep { sent with inputs := [.dmaStep] }) = [] := by decide +kernel

/-- V-H1: the ENGINE's reset in the middle of a transfer leaves RX where it was. -/
theorem test_engine_reset :
    let s := afterStep { sending with inputs := [.por] }
    s.pdState = .uninitialized ∧ s.cs = true ∧ s.trace = [] ∧ s.rx.cs = true ∧ s.rx.memwr = true
      ∧ s.rx.gram = framed.rx.gram ∧ s.mem = [] := by decide +kernel

/-- 70_reset_and_hazards.md R240: a reset that abandons FB_PRESENT after the window (26 events), the opening of the data
bracket (2) and one byte leaves RX deselected, in memory-write mode, with half a pixel; the HOST has no response. -/
theorem test_reset_in_stream :
    let s := afterStep { accepted .fbPresent framed with inputs := [.porDuring 29 0] }
    s.rx.half = some 0 ∧ s.rx.memwr = true ∧ s.rx.cs = true ∧ s.rx.col = 0 ∧ s.trace = [] ∧ s.rsp = 0 ∧ s.busy = false
      ∧ s.rspValid = false := by decide +kernel

/-- 70_reset_and_hazards.md R240: the reset inside PD_INIT's pulse, after 9 ms of it, marks RX. -/
theorem test_reset_in_pulse :
    let s := afterStep { accepted (.pdInit 1) tiny with inputs := [.porDuring 1 9] }
    s.rx.viol = { Viol.clear with rstPulse := true } ∧ s.rx.rst = true ∧ s.pdState = .uninitialized := by decide +kernel

/-! ### Witnesses: states and operands that meet the hypotheses of the obligations -/

/-- RX with its reset line low. -/
def lowRx : Rx := { tiny.rx with rst := false, holdMs := 9 }

theorem tiny_inv : tiny.Inv := by constructor <;> decide +kernel
theorem ready_inv : ready.Inv := by constructor <;> decide +kernel
theorem framed_inv : framed.Inv := by constructor <;> decide +kernel
theorem sending_inv : sending.Inv := by constructor <;> decide +kernel
theorem sendingFront_inv : sendingFront.Inv := by constructor <;> decide +kernel
theorem sent_inv : sent.Inv := by constructor <;> decide +kernel
theorem tiny_clean : tiny.LinkClean := by
  constructor
  case command => exact fun h => absurd (by decide +kernel) h
  all_goals decide +kernel
theorem framed_clean : framed.LinkClean := by
  constructor
  case command => exact fun _ => .inl ⟨by decide +kernel, by decide +kernel, by decide +kernel, by decide +kernel,
    by decide +kernel, by decide +kernel, by decide +kernel⟩
  all_goals decide +kernel

theorem witness_ReceiverResetValues : tiny.rx.rst = true := by decide +kernel

theorem witness_StepKeepsInvariant :
    let s := { sending with inputs := [.dmaStep] }
    s.Inv ∧ step s = .next (afterStep s) := by
  refine ⟨?_, by rfl⟩
  constructor <;> decide +kernel

/-- No operation in progress, with the reset line high and low; then FB_PRESENT, abandoned in the middle of its stream. -/
theorem witness_EngineResetKeepsReceiver :
    (ready.busy = false ∧ ready.rx.rst = true ∧ ({ ready with rx := lowRx } : State).rx.rst = false
      ∧ ({ ready with rx := lowRx, inputs := [.por] } : State).inputs = .por :: [])
    ∧ (let s := { accepted .fbPresent framed with inputs := [.porDuring 30 0] }
      s.busy = true ∧ s.inputs = .porDuring 30 0 :: []
        ∧ decode s.cfg.toParams (.cw (packCw s.op s.a0 s.a1 s.a2 s.a3 s.a4)) = .ok .fbPresent) := by
  exact ⟨by decide +kernel, by decide +kernel, rfl, by rfl⟩

/-- The pulse cut one millisecond short of 10, and not cut short. -/
theorem witness_ResetDuringPulseMarksReceiver :
    let s := fun ms => { accepted (.pdInit 1) tiny with inputs := [.porDuring 1 ms] }
    (s 9).Inv ∧ (s 9).LinkClean ∧ (s 9).busy = true ∧ (s 9).latchedInstr = .pdInit 1
      ∧ (s 9).pdState = .uninitialized ∧ handleValid (s 9).cfg.toParams 1 = true
      ∧ (s 9).inputs = .porDuring 1 9 :: [] ∧ 9 ≤ (s 9).cfg.tRstHold
      ∧ (s 10).inputs = .porDuring 1 10 :: [] ∧ 10 ≤ (s 10).cfg.tRstHold := by
  refine ⟨?_, ?_, ?_⟩
  · constructor <;> decide +kernel
  · constructor
    case command => exact fun h => absurd (by decide +kernel) h
    all_goals decide +kernel
  · decide +kernel

theorem witness_DecodeUndoesEncode :
    WellFormed Params.ref (.reserved 0x16) = true ∧ WellFormed minimalParams (.reserved 0x26) = true
      ∧ WellFormed Params.ref (.pdWrpixels 0 0) = true ∧ WellFormed Params.ref (.vendor 0x28 [1]) = true := by decide

theorem witness_RomHoldsInitTable :
    Params.ref.initTable.length ≤ 255 ∧ (∀ e ∈ Params.ref.initTable, e.params.length ≤ 127) := by decide

/-- Every clause at the ends of its range. -/
theorem witness_ReservedWordsAreRefused :
    ready.busy = false
      ∧ [0x00, 0x0F, 0x16, 0x1F, 0x2A, 0xFF].all (fun op => decide (cwOp (packCw op 0 0 0 0 0) ≤ 0x0F
        ∨ (0x16 ≤ cwOp (packCw op 0 0 0 0 0) ∧ cwOp (packCw op 0 0 0 0 0) ≤ 0x1F)
        ∨ 0x2A ≤ cwOp (packCw op 0 0 0 0 0))) = true
      ∧ (State.resetOf minimal).cfg.profile = .minimal ∧ (State.resetOf minimal).busy = false
      ∧ [0x10, 0x15, 0x23, 0x26].all (fun op => decide ((0x10 ≤ cwOp (packCw op 0 0 0 0 0)
        ∧ cwOp (packCw op 0 0 0 0 0) ≤ 0x15) ∨ cwOp (packCw op 0 0 0 0 0) = 0x23
        ∨ cwOp (packCw op 0 0 0 0 0) = 0x26)) = true := by decide +kernel

theorem witness_StepRunsLatchedOperation :
    let s := accepted .fbSwap framed
    s.busy = true ∧ s.inputs.head? = none
      ∧ decode s.cfg.toParams (.cw (packCw s.op s.a0 s.a1 s.a2 s.a3 s.a4)) = .ok .fbSwap := by
  refine ⟨by decide +kernel, by decide +kernel, by rfl⟩

/-- Both clauses: bytes that are a command, and none. -/
theorem witness_StepRunsWireCommand :
    ready.busy = false ∧ decode ready.cfg.toParams (.wire [0x29]) = .ok (.displayOn [])
      ∧ decode ready.cfg.toParams (.wire []) = .error .noCommandByte := by
  refine ⟨by decide +kernel, by rfl, by rfl⟩

theorem witness_FreePortAcceptsWord :
    let s := { ready with inputs := [.cmd 0] }
    s.busy = false ∧ s.inputs = .cmd 0 :: [] := by decide +kernel

theorem witness_BusyPortAcceptsNothing :
    let s := { accepted .fbSwap framed with inputs := [.cmd 0] }
    s.busy = true ∧ s.inputs = .cmd 0 :: [] ∧ step s = .next (afterStep s) := by
  refine ⟨by decide +kernel, by decide +kernel, by rfl⟩

/-- Both clauses, the second with the operation that a reset abandons. -/
theorem witness_EveryOperationResponds :
    hostOperation .pdDmadone = true ∧ (accepted .fbPresent framed).busy = true
      ∧ ({ accepted .fbPresent framed with inputs := [.porDuring 30 0] } : State).busy = true := by decide +kernel

/-- No run reaches a geometry that leaves engine memory; an operation completes there too (60_exceptions.md R220), and
writes engine memory only (20_memory.md R60). -/
theorem test_complete_outside_invariant :
    let s := after (.fbFill 0xF800) { ready with effW := 5, front := 0 }
    s.rsp = 1 ∧ listed s 46 4 = [some 0xF8, some 0x00, none, none] := by decide +kernel

theorem witness_FbInitClearsAndPresents : ready.pdState = .ready := by decide +kernel

/-- With no transfer in flight, and with one that does not overlap the back buffer. -/
theorem witness_FbFillWritesBackBuffer :
    (framed.Inv ∧ framed.owned = false) ∧ (sendingFront.Inv ∧ sendingFront.owned = false) :=
  ⟨⟨framed_inv, by decide +kernel⟩, ⟨sendingFront_inv, by decide +kernel⟩⟩

/-- Both clauses at the boundary: the last column and row, and one beyond. -/
theorem witness_FbSetpixelWritesOneElement :
    framed.Inv ∧ framed.owned = false
      ∧ ((3 : Word).toNat < framed.effW.toNat ∧ (2 : Word).toNat < framed.effH.toNat)
      ∧ framed.effW.toNat ≤ (4 : Word).toNat ∧ framed.effH.toNat ≤ (3 : Word).toNat :=
  ⟨framed_inv, by decide +kernel⟩

/-- Every clause at the boundary: a span to the end of the row, one beyond it, and a start outside. -/
theorem witness_FbDrawlineClampsToRow :
    framed.Inv ∧ framed.owned = false
      ∧ ((2 : Word).toNat < framed.effW.toNat ∧ (2 : Word).toNat < framed.effH.toNat)
      ∧ ¬ framed.effW.toNat - (2 : Word).toNat < (2 : Word).toNat
      ∧ framed.effW.toNat - (2 : Word).toNat < (3 : Word).toNat
      ∧ framed.effW.toNat ≤ (4 : Word).toNat ∧ framed.effH.toNat ≤ (3 : Word).toNat :=
  ⟨framed_inv, by decide +kernel⟩

theorem witness_FbPresentSendsFrontBuffer : framed.Inv ∧ framed.pdState = .ready := ⟨framed_inv, by decide +kernel⟩

/-- Both clauses: a range that ends one byte inside the back buffer, and one that ends just before it. -/
theorem witness_OwnedBufferIsNotDrawn :
    let s := { sending with dma := { sending.dma with base := 1, len := 24, ptr := 1 } }
    s.Inv ∧ sendingFront.Inv
      ∧ sendingFront.dma.base.toNat + sendingFront.dma.len.toNat
          = bufBase sendingFront.cfg.toParams sendingFront.back
      ∧ drawsBack (.fbFill 0) = true ∧ s.xfer = .inFlight
      ∧ bufBase s.cfg.toParams s.back < s.dma.base.toNat + s.dma.len.toNat
      ∧ s.dma.base.toNat < bufBase s.cfg.toParams s.back + s.cfg.bufBytes := by
  refine ⟨?_, sendingFront_inv, by decide +kernel⟩
  constructor <;> decide +kernel

/-- An init table with entries, and an empty one. -/
theorem witness_PdInitBringsUpPanel :
    tiny.pdState = .uninitialized ∧ handleValid tiny.cfg.toParams 1 = true ∧ tiny.cfg.initTable ≠ []
      ∧ Params.wf { Params.tiny with initTable := [] } = true := by decide +kernel

/-- PD_INIT's refusals: a state other than Uninitialized, an invalid handle. -/
theorem witness_PdInitBringsUpPanel_refused :
    ready.pdState ≠ .uninitialized ∧ handleValid tiny.cfg.toParams 0 = false := by decide +kernel

/-- The refusal clauses of the other operations: outside Ready, both ways, and a back buffer that is owned. -/
theorem witness_refused_clauses :
    tiny.Inv ∧ tiny.pdState ≠ .ready ∧ sending.Inv ∧ sending.pdState ≠ .ready ∧ sending.owned = true :=
  ⟨tiny_inv, by decide +kernel, sending_inv, by decide +kernel⟩

theorem witness_PdSetrotSetsGeometry : ready.pdState = .ready ∧ (1 : BitVec 2) ≠ 2 := by decide +kernel

/-- In Ready with a clean link, and with half a pixel pending, which the first of the two commands drops and marks. -/
theorem witness_PdSetrotIdempotent :
    let s : State := { framed with rx := { framed.rx with half := some 1 } }
    framed.pdState = .ready ∧ s.pdState = .ready
      ∧ exec (.pdSetrot 1) framed = .next (after (.pdSetrot 1) framed)
      ∧ exec (.pdSetrot 1) (after (.pdSetrot 1) framed) = .next (after (.pdSetrot 1) (after (.pdSetrot 1) framed))
      ∧ exec (.pdSetrot 1) s = .next (after (.pdSetrot 1) s) ∧ (after (.pdSetrot 1) s).rx.viol.half = true
      ∧ exec (.pdSetrot 1) (after (.pdSetrot 1) s) = .next (after (.pdSetrot 1) (after (.pdSetrot 1) s)) :=
  ⟨by decide +kernel, by decide +kernel, by rfl, by rfl, by rfl, by decide +kernel, by rfl⟩

/-- RX out of reset, with a window that is valid and one that is not. -/
theorem witness_PdSetwinSendsElevenBytes :
    ready.pdState = .ready ∧ ready.rx.rst = true
      ∧ windowValid ready.cfg.toParams (after (.pdSetwin 0 0 3 2) ready).rx = true
      ∧ windowValid ready.cfg.toParams (after (.pdSetwin 0 0 4 2) ready).rx = false := by decide +kernel

/-- Both clauses at the boundary: a range to the end of engine memory, one byte beyond, and a length beyond it. -/
theorem witness_PdWrdataStreamsRange :
    framed.pdState = .ready
      ∧ ((48 : Word).toNat ≤ framed.cfg.memBytes ∧ (0 : Word).toNat ≤ framed.cfg.memBytes - (48 : Word).toNat)
      ∧ framed.cfg.memBytes - (48 : Word).toNat < (1 : Word).toNat ∧ framed.cfg.memBytes < (49 : Word).toNat := by
  decide +kernel

/-- 32 and 33 pixels, and a clamped one. -/
theorem witness_PdFillrectFillsClampedRectangle :
    readyRef.pdState = .ready ∧ (128 : Word).toNat < readyRef.effW.toNat ∧ (127 : Word).toNat < readyRef.effH.toNat
      ∧ (33 : Word) ≠ 0 ∧ (1 : Word) ≠ 0 ∧ min (33 : Word).toNat (readyRef.effW.toNat - (128 : Word).toNat) = 32
      ∧ min (33 : Word).toNat (readyRef.effW.toNat - (127 : Word).toNat) = 33 := by decide +kernel

/-- The drop clauses of PD_FILLRECT and PD_DRAWPIXEL: a start just beyond either side (a zero side needs no witness). -/
theorem witness_dropped_clauses :
    ready.pdState = .ready ∧ ready.effW.toNat ≤ (4 : Word).toNat ∧ ready.effH.toNat ≤ (3 : Word).toNat := by
  decide +kernel

theorem witness_PdDrawpixelSendsOnePixel :
    ready.pdState = .ready ∧ (3 : Word).toNat < ready.effW.toNat ∧ (2 : Word).toNat < ready.effH.toNat := by
  decide +kernel

/-- Every clause: in flight; Ready at the last address inside and the first outside. -/
theorem witness_PdSenddmaStartsTransfer :
    (sending.Inv ∧ sending.xfer = .inFlight)
      ∧ (framed.Inv ∧ framed.pdState = .ready
        ∧ (24 : Word).toNat ≤ framed.cfg.memBytes - framed.effW.toNat * framed.effH.toNat * 2
        ∧ framed.cfg.memBytes - framed.effW.toNat * framed.effH.toNat * 2 < (25 : Word).toNat) :=
  ⟨⟨sending_inv, by decide +kernel⟩, framed_inv, by decide +kernel⟩

/-- Every clause: idle, bytes left (one of them), none left. -/
theorem witness_PdDmadoneObservesCompletion :
    (framed.Inv ∧ framed.xfer = .idle)
      ∧ (({ sending with dma := { sending.dma with ptr := 47, rem := 1 } } : State).Inv)
      ∧ (sending.Inv ∧ sending.xfer = .inFlight ∧ sending.dma.rem ≠ 0)
      ∧ (sent.Inv ∧ sent.xfer = .inFlight ∧ sent.dma.rem = 0) := by
  refine ⟨⟨framed_inv, by decide +kernel⟩, ?_, ⟨sending_inv, by decide +kernel⟩, sent_inv, by decide +kernel⟩
  constructor <;> decide +kernel

theorem witness_LinkOperationsNeedReady :
    needsReady .fbPresent = true ∧ tiny.pdState ≠ .ready ∧ sending.pdState ≠ .ready := by decide +kernel

/-- Each of the three transitions. -/
theorem witness_DriverTransitions :
    sent.Inv ∧ exec (.pdInit 1) tiny = .next ready ∧ ready.pdState ≠ tiny.pdState
      ∧ exec (.pdSenddma 24) framed = .next sending ∧ sending.pdState ≠ framed.pdState
      ∧ exec .pdDmadone sent = .next (after .pdDmadone sent) ∧ (after .pdDmadone sent).pdState ≠ sent.pdState :=
  ⟨sent_inv, by rfl, by decide +kernel, by rfl, by decide +kernel, by rfl, by decide +kernel⟩

theorem witness_OnlyDropsAndClampsCount :
    exec (.fbSetpixel 4 0 0) framed = .next (after (.fbSetpixel 4 0 0) framed)
      ∧ (after (.fbSetpixel 4 0 0) framed).diagOob ≠ framed.diagOob := ⟨by rfl, by decide +kernel⟩

theorem witness_OnlyDrawingWritesMemory :
    framed.Inv ∧ exec (.fbFill 0xFFFF) framed = .next (after (.fbFill 0xFFFF) framed)
      ∧ (after (.fbFill 0xFFFF) framed).byteAt 24 ≠ framed.byteAt 24 :=
  ⟨framed_inv, by rfl, by decide +kernel⟩

/-- Both clauses: a byte left, none left. -/
theorem witness_DmaTurnSendsOneByte :
    (sending.Inv ∧ sending.busy = false ∧ sending.dma.active = true ∧ sending.dma.rem ≠ 0)
      ∧ (sent.Inv ∧ sent.busy = false ∧ sent.dma.rem = 0) :=
  ⟨⟨sending_inv, by decide +kernel⟩, sent_inv, by decide +kernel⟩

theorem witness_DmaTurnsCompleteTransfer :
    sending.Inv ∧ sending.busy = false ∧ sending.xfer = .inFlight ∧ 24 ≤ sending.dma.rem.toNat :=
  ⟨sending_inv, by decide +kernel⟩

/-- While a transfer of the front buffer is in flight the back buffer is drawn. -/
theorem witness_TransferRangeIsUntouched :
    let s := accepted (.fbFill 0xFFFF) sendingFront
    s.Inv ∧ step s = .next (afterStep s) ∧ s.xfer = .inFlight ∧ (afterStep s).xfer = .inFlight
      ∧ s.dma.base.toNat ≤ 23 ∧ 23 < s.dma.base.toNat + s.dma.len.toNat := by
  refine ⟨?_, by rfl, by decide +kernel⟩
  constructor <;> decide +kernel

theorem witness_TraceKeepsItsShape :
    let s := accepted (.pdSenddma 24) framed
    s.Inv ∧ s.traceShaped ∧ step s = .next (afterStep s) := by
  refine ⟨?_, by rfl, by rfl⟩
  constructor <;> decide +kernel

/-- A host operation, and a wire command. -/
theorem witness_ReceiverFollowsTrace :
    exec (.pdSetrot 1) ready = .next (after (.pdSetrot 1) ready) ∧ hostOperation (.pdSetrot 1) = true
      ∧ exec (.displayOn []) ready = .next (after (.displayOn []) ready) ∧ hostOperation (.displayOn []) = false :=
  ⟨by rfl, rfl, by rfl, rfl⟩

/-- A window at the edge of the geometry. -/
theorem witness_BlockSetsNoViolation :
    let s := accepted (.pdSetwin 0 0 3 2) framed
    s.Inv ∧ s.LinkClean ∧ vendorTable s.cfg.toParams ∧ s.blockMoves ∧ contractKept s s.latchedInstr
      ∧ step s = .next (afterStep s) := by
  refine ⟨?_, ?_, ?_, trivial, ?_, by rfl⟩
  · constructor <;> decide +kernel
  · constructor
    case command => exact fun _ => .inl ⟨by decide +kernel, by decide +kernel, by decide +kernel, by decide +kernel,
      by decide +kernel, by decide +kernel, by decide +kernel⟩
    all_goals decide +kernel
  · unfold vendorTable; decide +kernel
  · show contractKept _ (.pdSetwin 0 0 3 2)
    unfold contractKept; decide +kernel

theorem witness_SetpixelSwapPresent :
    framed.Inv ∧ framed.pdState = .ready ∧ (3 : Word).toNat < framed.effW.toNat ∧ (2 : Word).toNat < framed.effH.toNat :=
  ⟨framed_inv, by decide +kernel⟩

theorem witness_PresentPaintsWholePanel :
    framed.Inv ∧ framed.LinkClean ∧ framed.pdState = .ready ∧ exec .fbPresent framed = .next (after .fbPresent framed)
      ∧ 3 < framed.effW.toNat ∧ 2 < framed.effH.toNat :=
  ⟨framed_inv, framed_clean, by decide +kernel, by rfl, by decide +kernel⟩

theorem witness_DrawpixelPaintsOneCell :
    framed.Inv ∧ framed.LinkClean ∧ framed.pdState = .ready ∧ (3 : Word).toNat < framed.effW.toNat
      ∧ (2 : Word).toNat < framed.effH.toNat
      ∧ exec (.pdDrawpixel 3 2 0xF800) framed = .next (after (.pdDrawpixel 3 2 0xF800) framed) :=
  ⟨framed_inv, framed_clean, by decide +kernel, by decide +kernel, by decide +kernel, by rfl⟩

theorem witness_ReceiverDoesNotReachEngine :
    step (accepted (.pdSetrot 1) framed) = .next (afterStep (accepted (.pdSetrot 1) framed)) := by rfl

/-- Both gates. -/
theorem witness_GatedBytesDoNothing :
    tiny.rx.cs = true ∧ lowRx.rst = false ∧ hostOperation (.displayOn []) = false := by decide +kernel

theorem witness_ReceiverResetTiming : tiny.rx.rst = true ∧ lowRx.rst = false := by decide +kernel

/-- Every clause: on the panel and off it, inside a row, at its end, at the window's end. -/
theorem witness_PixelWriteAndAdvance :
    let r := framed.rx
    Gram.wf Params.tiny r.gram = true ∧ (panelMap Params.tiny r.orient 3 2).isSome = true
      ∧ panelMap Params.tiny r.orient 4 2 = none ∧ r.col ≠ r.xe
      ∧ ({ r with col := 3 } : Rx).col = r.xe ∧ ({ r with col := 3 } : Rx).row ≠ r.ye
      ∧ ({ r with col := 3, row := 2 } : Rx).row = r.ye ∧ windowValid Params.tiny r = true
      ∧ r.xs ≤ r.col ∧ r.col ≤ r.xe ∧ r.ys ≤ r.row ∧ r.row ≤ r.ye := by decide +kernel

/-- Every clause, with the exchange flag clear and set. -/
theorem witness_RotationMapIsBijection :
    3 < rxW Params.tiny 0x08 ∧ 2 < rxH Params.tiny 0x08 ∧ 2 < rxW Params.tiny 0x68 ∧ 3 < rxH Params.tiny 0x68
      ∧ rxW Params.tiny 0x68 ≤ 3 ∧ rxH Params.tiny 0x08 ≤ 3 := by decide +kernel

/-- The hypothesis of the statements about the wire commands. -/
theorem witness_WireCommands : ready.rx.rst = true ∧ (0x3A : Byte) ∉ ready.cfg.namedCommands := by decide +kernel

end Sys2Proof.Tests
end

/-! ## What a step can do, and the statements on the state -/

section

namespace Sys2Proof.Machine

open Sys2Proof

/-! ### Whole items of a wire trace (40_bus_transport.md R130) -/

/-- Events that form whole items: command and data brackets, waits outside brackets, panel reset pulses
(40_bus_transport.md R130). -/
inductive WholeItems (p : Params) : List Event → Prop
  | nil : WholeItems p []
  | command (b : Byte) : WholeItems p (btCmd b)
  | data (bs : List Byte) : WholeItems p (btData bs)
  | wait (ms : Nat) : WholeItems p [.wait ms]
  | pulse : WholeItems p (resetPulse p)
  | append {es fs : List Event} : WholeItems p es → WholeItems p fs → WholeItems p (es ++ fs)

theorem WholeItems.flatten {p : Params} {ess : List (List Event)} (h : ∀ es ∈ ess, WholeItems p es) :
    WholeItems p ess.flatten := by
  induction ess with
  | nil => exact .nil
  | cons es ess ih =>
    exact .append (h es (by simp)) (ih fun fs hfs => h fs (List.mem_cons_of_mem _ hfs))

theorem WholeItems.flatMap {α : Type} {p : Params} {f : α → List Event} (h : ∀ a, WholeItems p (f a))
    (l : List α) : WholeItems p (l.flatMap f) := by
  rw [List.flatMap_def]
  exact .flatten (by simp [h])

/-- A link whose chip-select and reset lines are high has them high again after whole items. -/
theorem WholeItems.lines {p : Params} {es : List Event} (h : WholeItems p es) :
    es.foldl csAfter true = true ∧ es.foldl rstAfter true = true := by
  induction h with
  | nil => exact ⟨rfl, rfl⟩
  | command b => exact ⟨rfl, rfl⟩
  | data bs => exact ⟨(btData_lines true bs).1, (btData_lines true bs).2.2⟩
  | wait ms => exact ⟨rfl, rfl⟩
  | pulse => exact ⟨rfl, rfl⟩
  | append _ _ ihe ihf =>
    simp only [List.foldl_append, ihe.1, ihe.2]
    exact ihf

theorem wholeItems_setWindow (p : Params) (x0 y0 x1 y1 : Half) : WholeItems p (setWindow p x0 y0 x1 y1) :=
  .append (.append (.append (.command _) (.data _)) (.append (.command _) (.data _))) (.command _)

theorem wholeItems_screenWindow (s : State) : WholeItems s.cfg.toParams s.screenWindow :=
  wholeItems_setWindow _ _ _ _ _

theorem wholeItems_orientCommand (p : Params) (o : Byte) : WholeItems p (orientCommand p o) :=
  .append (.command _) (.data _)

theorem wholeItems_fillEvents (p : Params) (c : Half) (n : Nat) : WholeItems p (fillEvents p c n) := by
  unfold fillEvents
  split
  · exact .flatMap (fun k => .data (wirePixels c k)) _
  · exact .flatten fun es hes => by rw [List.eq_of_mem_replicate hes]; exact .data _

theorem wholeItems_entryEvents (p : Params) (e : InitEntry) : WholeItems p (entryEvents e) := by
  unfold entryEvents
  refine .append (.append (.command _) ?_) ?_
  · split
    · exact .nil
    · exact .data _
  · cases e.delay with
    | none => exact .nil
    | some d => exact .wait _

/-- The events of PD_INIT's sequence (42_panel_driver.md R172). -/
def initEvents (c : Config) : List Event :=
  resetPulse c.toParams ++ c.initTable.flatMap entryEvents
    ++ orientCommand c.toParams (orientByte c.toParams c.defaultRotation) ++ displayOnEvents c.toParams

theorem wholeItems_initEvents (c : Config) : WholeItems c.toParams (initEvents c) :=
  .append (.append (.append .pulse (.flatMap (wholeItems_entryEvents _) _)) (wholeItems_orientCommand _ _))
    (.append (.command _) (.wait _))

/-! ### What an instruction can do -/

/-- The four operations that drop or clamp what lies outside the geometry (60_exceptions.md R231). -/
def dropsOrClamps : Instr → Bool
  | .fbSetpixel _ _ _ => true
  | .fbDrawline _ _ _ _ => true
  | .pdFillrect _ _ _ _ _ => true
  | .pdDrawpixel _ _ _ => true
  | _ => false

theorem dropsOrClamps_iff (i : Instr) : dropsOrClamps i = true ↔
    (∃ x y c, i = .fbSetpixel x y c) ∨ (∃ x y l c, i = .fbDrawline x y l c)
      ∨ (∃ x y w h c, i = .pdFillrect x y w h c) ∨ (∃ x y c, i = .pdDrawpixel x y c) := by
  cases i <;> simp [dropsOrClamps]

theorem hostOperation_of_dropsOrClamps {i : Instr} (h : dropsOrClamps i = true) : hostOperation i = true := by
  revert h
  cases i <;> simp [dropsOrClamps, hostOperation]

theorem hostOperation_of_needsReady {i : Instr} (h : needsReady i = true) : hostOperation i = true := by
  revert h
  cases i <;> simp [needsReady, hostOperation]

theorem hostOperation_of_drawsBack {i : Instr} (h : drawsBack i = true) : hostOperation i = true := by
  revert h
  cases i <;> simp [drawsBack, hostOperation]

/-- The state in which an operation draws or sends: the one it began in, or that one with a clamp counted
(10_state.md R34). -/
inductive Clamped (s : State) (i : Instr) : State → Prop
  | whole : Clamped s i s
  | counted (hi : dropsOrClamps i = true) : Clamped s i s.countOob

/-- The panel is up, after the events of PD_INIT's sequence (42_panel_driver.md R172). -/
def State.broughtUp (s : State) : State :=
  { s.emit (initEvents s.cfg) with
    pdState := .ready,
    seqIdx := if s.cfg.initTable = [] then s.seqIdx else BitVec.ofNat 8 (s.cfg.initTable.length - 1),
    rot := s.cfg.defaultRotation, orient := orientByte s.cfg.toParams s.cfg.defaultRotation,
    effW := rotW s.cfg.toParams s.cfg.defaultRotation, effH := rotH s.cfg.toParams s.cfg.defaultRotation }

theorem initSequence_eq_broughtUp (s : State) : s.initSequence = s.broughtUp := initSequence_eq s

/-- A transfer of one screen is in flight, its data bracket open (42_panel_driver.md R180, 40_bus_transport.md R123). -/
def State.transferStarted (s : State) (addr : Word) : State :=
  let n := BitVec.ofNat 32 s.screenBytes
  { s.emit (s.screenWindow ++ [.cs false, .dc true]) with
    dma := { active := true, done := decide (n = 0), base := addr, len := n, ptr := addr, rem := n },
    xfer := .inFlight, pdState := .busy }

theorem btDataDma_eq_transferStarted (s : State) (addr : Word) :
    { (s.emit s.screenWindow).btDataDma addr (BitVec.ofNat 32 s.screenBytes) with
        xfer := .inFlight, pdState := .busy } = s.transferStarted addr := by
  rw [State.btDataDma, State.emit_emit, State.transferStarted]

/-- The transfer has ended, its data bracket closed (42_panel_driver.md R181, 40_bus_transport.md R124). -/
def State.transferEnded (s : State) : State :=
  { s.emit [.cs true] with dma := { s.dma with active := false }, xfer := .idle, pdState := .ready }

/-- Everything that an instruction can do in the state `s`, with the guard of its rule. -/
inductive Effect (s : State) : Instr → State → Prop
  /-- Nothing but a response: a refusal, or a question answered. -/
  | answer {i : Instr} (v : Word) (hi : hostOperation i = true) (hv : v = 0 ∨ v = 1 ∨ i = .pdGetw ∨ i = .pdGeth) :
      Effect s i (s.done v)
  /-- What lies outside the geometry is dropped and counted (60_exceptions.md R231). -/
  | drop {i : Instr} (hi : dropsOrClamps i = true) : Effect s i (s.countOob.done 1)
  /-- Whole items go out on the link (42_panel_driver.md R176 to R179, 43_framebuffer.md R207). -/
  | send {i : Instr} {u : State} {es : List Event} (hi : needsReady i = true) (hready : s.pdState = .ready)
      (hu : Clamped s i u) (hes : WholeItems s.cfg.toParams es) : Effect s i ((u.emit es).done 1)
  /-- `n` pixels from element `k` on go to the back buffer, inside the screen (43_framebuffer.md R203 to R205). -/
  | draw {i : Instr} {u : State} {k n : Nat} {c : Half} (hi : drawsBack i = true) (hfree : s.owned = false)
      (hu : Clamped s i u) (hin : k + n ≤ s.effW.toNat * s.effH.toNat) :
      Effect s i ((u.pixStores s.back k n c).done 1)
  /-- Both buffers are cleared and the front buffer is sent (43_framebuffer.md R202). -/
  | clear {es : List Event} (hready : s.pdState = .ready) (hes : WholeItems s.cfg.toParams es) :
      Effect s .fbInit ((s.clearBuffers.emit es).done 1)
  /-- The buffers change their tags (43_framebuffer.md R206). -/
  | swap : Effect s .fbSwap ({ s with front := 1 - s.front }.done 1)
  /-- The panel is brought up (42_panel_driver.md R172). -/
  | bringUp {handle : Word} (hfirst : s.pdState = .uninitialized)
      (hvalid : handleValid s.cfg.toParams handle = true) : Effect s (.pdInit handle) (s.broughtUp.done 1)
  /-- The rotation is applied (42_panel_driver.md R174). -/
  | rotate {r : BitVec 2} (hready : s.pdState = .ready) : Effect s (.pdSetrot r) ((s.applyRotation r).done 1)
  /-- A transfer starts (42_panel_driver.md R180). -/
  | startTransfer {addr : Word} (hidle : s.xfer ≠ .inFlight) (hready : s.pdState = .ready)
      (hrange : rangeInMem s.cfg.toParams addr.toNat s.screenBytes = true) :
      Effect s (.pdSenddma addr) ((s.transferStarted addr).done 1)
  /-- A transfer is seen to have completed (42_panel_driver.md R181). -/
  | endTransfer (hflight : s.xfer ≠ .idle) (hactive : s.dma.active = true) (hdone : s.dma.done = true) :
      Effect s .pdDmadone (s.transferEnded.done 1)
  /-- A transfer that DMA does not have is seen as completed (40_bus_transport.md R124); no state of the invariant has
  one. -/
  | endNoTransfer (hflight : s.xfer ≠ .idle) (hactive : s.dma.active = false) :
      Effect s .pdDmadone ({ s with xfer := .idle, pdState := .ready }.done 1)
  /-- RX takes a wire command of another driver of the link (41_receiver.md R140). -/
  | receive {i : Instr} (es : List Event) (hi : hostOperation i = false) : Effect s i (s.receive es)

/-- The outcome is a next state, one that the instruction can lead to. -/
def Performs (s : State) (i : Instr) (o : Host.Outcome State Fault Refusal) : Prop :=
  ∃ t, o = .next t ∧ Effect s i t

theorem Performs.next {s t : State} {i : Instr} (h : Effect s i t) : Performs s i (.next t) := ⟨t, rfl, h⟩

/-- A refusal (60_exceptions.md R221). -/
theorem Performs.refuse {s : State} {i : Instr} (hi : hostOperation i = true) : Performs s i (.next s.refuse) :=
  .next (.answer 0 hi (.inl rfl))

/-! ### The FB operations -/

theorem execFbInit_performs (s : State) : Performs s .fbInit (execFbInit s) := by
  unfold execFbInit
  split
  · exact .refuse rfl
  · rename_i h
    exact .next (.clear (not_not.1 h) (.append (wholeItems_setWindow _ _ _ _ _) (.data _)))

theorem execFbFill_performs (c : Half) (s : State) : Performs s (.fbFill c) (execFbFill c s) := by
  unfold execFbFill
  split
  · exact .refuse rfl
  · rename_i h
    exact .next (.draw rfl (Bool.eq_false_of_not_eq_true h) .whole (Nat.zero_add _).le)

/-- `n` elements from column `x` on, in a row of the screen, lie inside the screen. -/
theorem row_inside {x y n w h : Nat} (hx : x + n ≤ w) (hy : y < h) : y * w + x + n ≤ w * h :=
  calc y * w + x + n ≤ (y + 1) * w := by rw [Nat.succ_mul]; omega
    _ ≤ w * h := by rw [Nat.mul_comm]; exact Nat.mul_le_mul_left w hy

theorem execFbSetpixel_performs (x y : Word) (c : Half) (s : State) :
    Performs s (.fbSetpixel x y c) (execFbSetpixel x y c s) := by
  unfold execFbSetpixel
  split
  · exact .refuse rfl
  rename_i hfree
  split
  · rename_i hin
    exact .next (.draw rfl (Bool.eq_false_of_not_eq_true hfree) .whole (row_inside hin.1 hin.2))
  · exact .next (.drop rfl)

theorem execFbDrawline_performs (x y len : Word) (c : Half) (s : State) :
    Performs s (.fbDrawline x y len c) (execFbDrawline x y len c s) := by
  unfold execFbDrawline
  split
  · exact .refuse rfl
  rename_i hfree
  split
  · exact .next (.drop rfl)
  rename_i hout
  have hrow : x.toNat + clampLen len.toNat s.effW.toNat x.toNat ≤ s.effW.toNat := by
    unfold clampLen; omega
  refine .next (.draw rfl (Bool.eq_false_of_not_eq_true hfree) ?_ (row_inside hrow (by omega)))
  split
  · exact .counted rfl
  · exact .whole

theorem execFbSwap_performs (s : State) : Performs s .fbSwap (execFbSwap s) := .next .swap

theorem execFbPresent_performs (s : State) : Performs s .fbPresent (execFbPresent s) := by
  unfold execFbPresent
  split
  · exact .refuse rfl
  · rename_i h
    exact .next (.send rfl (not_not.1 h) .whole (.append (wholeItems_setWindow _ _ _ _ _) (.data _)))

/-! ### The PD operations -/

theorem execPdInit_performs (handle : Word) (s : State) : Performs s (.pdInit handle) (execPdInit handle s) := by
  unfold execPdInit
  split
  · exact .refuse rfl
  rename_i hfirst
  split
  · exact .refuse rfl
  · rename_i hvalid
    rw [initSequence_eq_broughtUp]
    exact .next (.bringUp (not_not.1 hfirst) (Bool.eq_true_of_not_eq_false hvalid))

theorem execPdSetrot_performs (r : BitVec 2) (s : State) : Performs s (.pdSetrot r) (execPdSetrot r s) := by
  unfold execPdSetrot
  split
  · exact .refuse rfl
  · rename_i h
    exact .next (.rotate (not_not.1 h))

theorem execPdSetwin_performs (x0 y0 x1 y1 : Half) (s : State) :
    Performs s (.pdSetwin x0 y0 x1 y1) (execPdSetwin x0 y0 x1 y1 s) := by
  unfold execPdSetwin
  split
  · exact .refuse rfl
  · rename_i h
    exact .next (.send rfl (not_not.1 h) .whole (wholeItems_setWindow _ _ _ _ _))

/-- The shared operation of PD_WRDATA and PD_WRPIXELS (42_panel_driver.md R177, 30_encoding.md R111). -/
theorem writeData_performs (addr len : Word) (s : State) {i : Instr} (hi : hostOperation i = true)
    (hr : needsReady i = true) : Performs s i (.next (writeData addr len s)) := by
  rcases writeData_cases addr len s with ⟨-, h⟩ | ⟨hready, -, -, h⟩ <;> rw [h]
  · exact .refuse hi
  · exact .next (.send hr hready .whole (.data _))

theorem execPdFillrect_performs (x y w h : Word) (c : Half) (s : State) :
    Performs s (.pdFillrect x y w h c) (execPdFillrect x y w h c s) := by
  unfold execPdFillrect
  split
  · exact .refuse rfl
  rename_i hready
  split
  · exact .next (.drop rfl)
  refine .next (.send rfl (not_not.1 hready) ?_
    (.append (wholeItems_setWindow _ _ _ _ _) (wholeItems_fillEvents _ _ _)))
  split
  · exact .counted rfl
  · exact .whole

theorem execPdDrawpixel_performs (x y : Word) (c : Half) (s : State) :
    Performs s (.pdDrawpixel x y c) (execPdDrawpixel x y c s) := by
  unfold execPdDrawpixel
  split
  · exact .refuse rfl
  rename_i hready
  split
  · exact .next (.drop rfl)
  · exact .next (.send rfl (not_not.1 hready) .whole (.append (wholeItems_setWindow _ _ _ _ _) (.data _)))

theorem execPdSenddma_performs (addr : Word) (s : State) :
    Performs s (.pdSenddma addr) (execPdSenddma addr s) := by
  unfold execPdSenddma
  split
  · exact .refuse rfl
  rename_i hidle
  split
  · exact .refuse rfl
  rename_i hready
  split
  · exact .refuse rfl
  · rename_i hrange
    dsimp only
    rw [btDataDma_eq_transferStarted]
    exact .next (.startTransfer hidle (not_not.1 hready) (Bool.eq_true_of_not_eq_false hrange))

theorem execPdDmadone_performs (s : State) : Performs s .pdDmadone (execPdDmadone s) := by
  unfold execPdDmadone
  split
  · exact .next (.answer 1 rfl (.inr (.inl rfl)))
  rename_i hflight
  rcases btDmaDone_cases s with ⟨hactive, h⟩ | ⟨-, -, h⟩ | ⟨hactive, hdone, h⟩ <;> simp only [h]
  · exact .next (.endNoTransfer hflight hactive)
  · exact .refuse rfl
  · exact .next (.endTransfer hflight hactive hdone)

/-- Every instruction has a next state in every state (60_exceptions.md R220), and `Effect` says which. -/
theorem exec_performs (i : Instr) (s : State) : Performs s i (exec i s) :=
  match i with
  | .fbInit => execFbInit_performs s
  | .fbFill c => execFbFill_performs c s
  | .fbSetpixel x y c => execFbSetpixel_performs x y c s
  | .fbDrawline x y len c => execFbDrawline_performs x y len c s
  | .fbSwap => execFbSwap_performs s
  | .fbPresent => execFbPresent_performs s
  | .pdInit handle => execPdInit_performs handle s
  | .pdSetrot r => execPdSetrot_performs r s
  | .pdSetwin x0 y0 x1 y1 => execPdSetwin_performs x0 y0 x1 y1 s
  | .pdWrdata addr len => writeData_performs addr len s rfl rfl
  | .pdFillrect x y w h c => execPdFillrect_performs x y w h c s
  | .pdDrawpixel x y c => execPdDrawpixel_performs x y c s
  | .pdSenddma addr => execPdSenddma_performs addr s
  | .pdDmadone => execPdDmadone_performs s
  | .pdGetw => .next (.answer _ rfl (.inr (.inr (.inl rfl))))
  | .pdGeth => .next (.answer _ rfl (.inr (.inr (.inr rfl))))
  | .pdWrpixels addr len => writeData_performs addr len s rfl rfl
  | .reserved _ => .refuse rfl
  | .columnRange _ => .next (.receive _ rfl)
  | .rowRange _ => .next (.receive _ rfl)
  | .beginMemoryWrite _ => .next (.receive _ rfl)
  | .orientation _ => .next (.receive _ rfl)
  | .displayOn _ => .next (.receive _ rfl)
  | .vendor _ _ => .next (.receive _ rfl)

/-- The inversion of `exec`. -/
theorem exec_effect {i : Instr} {s t : State} (h : exec i s = .next t) : Effect s i t := by
  obtain ⟨u, hu, heff⟩ := exec_performs i s
  rw [hu] at h
  cases h
  exact heff

/-- A wire command changes RX alone (41_receiver.md R140). -/
theorem Effect.of_wire {s t : State} {i : Instr} (h : Effect s i t) (hi : hostOperation i = false) :
    ∃ es, t = s.receive es := by
  cases h with
  | receive es _ => exact ⟨es, rfl⟩
  | answer _ hhost _ => rw [hi] at hhost; cases hhost
  | drop hd => rw [hostOperation_of_dropsOrClamps hd] at hi; cases hi
  | send hr _ _ _ => rw [hostOperation_of_needsReady hr] at hi; cases hi
  | draw hd _ _ _ => rw [hostOperation_of_drawsBack hd] at hi; cases hi
  | clear _ _ => cases hi
  | swap => cases hi
  | bringUp _ _ => cases hi
  | rotate _ => cases hi
  | startTransfer _ _ _ => cases hi
  | endTransfer _ _ _ => cases hi
  | endNoTransfer _ _ => cases hi

/-! ### What a step can do -/

/-- With an operation in progress that no reset abandons, a step runs what the latches hold (10_state.md R52). -/
theorem step_of_busy {s : State} (hb : s.busy = true) (hin : ∀ k ms, s.inputs.head? ≠ some (.porDuring k ms)) :
    step s = exec s.latchedInstr s := by
  unfold step stepBusy
  rw [if_pos hb]
  split
  · rename_i k ms rest h
    exact absurd (by rw [h]; rfl) (hin k ms)
  · rfl

/-- With no operation in progress a step accepts the word offered (10_state.md R52). -/
theorem step_of_cmd {s : State} {w : CommandWord} {rest : List Input} (hb : s.busy = false)
    (hin : s.inputs = .cmd w :: rest) : step s = .next (s.consume.accept w) := by
  simp [step, stepIdle, hb, hin]

/-- Everything that a step can do in the state `s`. -/
inductive Move (s : State) : State → Prop
  /-- The operation in progress runs (10_state.md R52). -/
  | operation {t : State} (hb : s.busy = true) (h : Effect s s.latchedInstr t) : Move s t
  /-- The ENGINE's own reset, with what RX has seen of an abandoned operation (70_reset_and_hazards.md R240). -/
  | reset (es : List Event) : Move s (s.consume.engineReset es)
  /-- Nothing moves. -/
  | idle (hb : s.busy = false) : Move s s.lowerValid
  /-- A command word is accepted (10_state.md R52). -/
  | accept (hb : s.busy = false) (w : CommandWord) : Move s (s.consume.accept w)
  /-- Another driver of the link moves (41_receiver.md R140, R142). -/
  | otherDriver (hb : s.busy = false) (es : List Event) : Move s (s.consume.receive es)
  /-- DMA takes its turn (40_bus_transport.md R125). -/
  | dma (hb : s.busy = false) : Move s s.consume.dmaTurn

/-- The wire decoder answers wire commands only (30_encoding.md R101). -/
theorem hostOperation_wireCommand (p : Params) (b : Byte) (data : List Byte) :
    hostOperation (wireCommand p b data) = false := by
  unfold wireCommand
  simp only [apply_ite hostOperation]
  simp only [hostOperation, ite_self]

theorem runWire_move {s t : State} {bytes : List Byte} (hb : s.busy = false)
    (h : runWire s.consume bytes = .next t) : Move s t := by
  cases bytes with
  | nil => cases h
  | cons b data =>
    obtain ⟨es, rfl⟩ := (exec_effect h).of_wire (hostOperation_wireCommand _ b data)
    exact .otherDriver hb es

theorem runAbandoned_move {s t : State} {k ms : Nat} (h : runAbandoned s k ms = .next t) : Move s t := by
  obtain ⟨u, hu, -⟩ := exec_performs s.latchedInstr s
  simp only [runAbandoned, runLatched, hu] at h
  cases h
  exact .reset _

/-- The inversion of `step`. -/
theorem step_move {s t : State} (h : step s = .next t) : Move s t := by
  unfold step at h
  split at h
  · rename_i hb
    unfold stepBusy at h
    split at h
    · exact runAbandoned_move h
    · exact .operation hb (exec_effect h)
  · rename_i hb
    have hb := Bool.eq_false_of_not_eq_true hb
    unfold stepIdle at h
    split at h
    · cases h; exact .idle hb
    · cases h; exact .accept hb _
    · exact runWire_move hb h
    · cases h; exact .otherDriver hb _
    · cases h; exact .dma hb
    · cases h; exact .reset _
    · cases h; exact .reset _

/-! ### The invariant, operation by operation (10_state.md R37) -/

/-- The panel's sides as 16-bit values (00_scope.md R7). -/
theorem panel_side_toNat (c : Config) :
    (BitVec.ofNat 16 c.panelW).toNat = c.panelW ∧ (BitVec.ofNat 16 c.panelH).toNat = c.panelH
      ∧ (BitVec.ofNat 16 (c.panelW - 1)).toNat = c.panelW - 1
      ∧ (BitVec.ofNat 16 (c.panelH - 1)).toNat = c.panelH - 1 := by
  obtain ⟨⟨-, hw, -, hh, -⟩, -⟩ := c.bounds
  simp only [BitVec.toNat_ofNat]
  omega

theorem resetOf_inv (c : Config) : (State.resetOf c).Inv where
  memForm := reset_memory_wf c
  memInside := by simp [State.resetOf]
  gramForm := unwritten_wf c.toParams
  busyIff := by simp [State.resetOf]
  activeIff := by simp [State.resetOf, Dma.reset]
  csIff := by simp [State.resetOf]
  dcHigh := by simp [State.resetOf]
  pdStates := .inl rfl
  rstHigh := rfl
  width := rfl
  height := rfl
  orientation := .inr ⟨rfl, rfl⟩
  rangeInside := by simp [State.resetOf]
  progress := by simp [State.resetOf]
  doneIff := by simp [State.resetOf]

theorem seeEngineReset_gram (r : Rx) : r.seeEngineReset.gram = r.gram := by
  unfold Rx.seeEngineReset Rx.resetRelease
  dsimp only
  repeat' split
  all_goals rfl

namespace State.Inv

variable {s : State}

theorem done (h : s.Inv) (v : Word) : (s.done v).Inv := { h with }

theorem countOob (h : s.Inv) : s.countOob.Inv := { h with }

theorem consume (h : s.Inv) : s.consume.Inv := { h with }

theorem lowerValid (h : s.Inv) : s.lowerValid.Inv := { h with }

theorem accept (h : s.Inv) (w : CommandWord) : (s.accept w).Inv := { h with }

theorem swap (h : s.Inv) : { s with front := 1 - s.front }.Inv := { h with }

theorem clamped (h : s.Inv) {i : Instr} {u : State} (hu : Clamped s i u) : u.Inv := by
  cases hu with
  | whole => exact h
  | counted _ => exact h.countOob

theorem memWrite (h : s.Inv) (a : Nat) (v : List Byte) : (s.memWrite a v).Inv :=
  { h with
    memForm := memWrite_keeps_wf h.memForm a v
    memInside := memWrite_keeps_inside h.memInside a v }

theorem receive (h : s.Inv) (es : List Event) : (s.receive es).Inv :=
  { h with gramForm := events_keep_gram_wf h.gramForm es }

theorem engineReset (h : s.Inv) (es : List Event) : (s.engineReset es).Inv :=
  { resetOf_inv s.cfg with
    gramForm := by
      show Gram.wf _ (Rx.seeEngineReset _).gram = true
      rw [seeEngineReset_gram]
      exact events_keep_gram_wf h.gramForm es }

/-- No transfer is in flight but in Busy (R37 (a)). -/
theorem idle_of_not_busy (h : s.Inv) (hp : s.pdState ≠ .busy) : s.xfer = .idle := by
  cases hx : s.xfer with
  | idle => rfl
  | inFlight => exact absurd (h.busyIff.2 hx) hp

/-- No transfer is in flight where DMA has none (R37 (a)). -/
theorem idle_of_inactive (h : s.Inv) (hactive : s.dma.active = false) : s.xfer = .idle := by
  cases hx : s.xfer with
  | idle => rfl
  | inFlight => rw [h.activeIff.1 hx] at hactive; cases hactive

/-- Outside a transfer chip-select is high (R37 (b)). -/
theorem cs_of_idle (h : s.Inv) (hx : s.xfer = .idle) : s.cs = true := by
  cases hc : s.cs with
  | true => rfl
  | false => rw [h.csIff.1 hc] at hx; cases hx

/-- Whole items sent outside a transfer keep the invariant. -/
theorem emit (h : s.Inv) (hx : s.xfer = .idle) {es : List Event} (hes : WholeItems s.cfg.toParams es) :
    (s.emit es).Inv :=
  { h with
    gramForm := events_keep_gram_wf h.gramForm es
    csIff := by simp [hx, h.cs_of_idle hx, hes.lines.1]
    dcHigh := by simp [hx]
    rstHigh := by simp [h.rstHigh, hes.lines.2] }

/-- The geometry and the orientation byte follow the rotation (R37 (e)). -/
theorem setRotation (h : s.Inv) (r : BitVec 2) : (s.setRotation r).Inv :=
  { h with width := rfl, height := rfl, orientation := .inl rfl }

theorem applyRotation (h : s.Inv) (hready : s.pdState = .ready) (r : BitVec 2) : (s.applyRotation r).Inv :=
  (h.setRotation r).emit (h.idle_of_not_busy (by simp [hready])) (wholeItems_orientCommand _ _)

theorem broughtUp (h : s.Inv) (hfirst : s.pdState = .uninitialized) : s.broughtUp.Inv :=
  have hx : s.xfer = .idle := h.idle_of_not_busy (by simp [hfirst])
  { h.emit hx (wholeItems_initEvents s.cfg) with
    busyIff := by simp [State.broughtUp, hx]
    pdStates := .inr (.inl rfl)
    width := rfl
    height := rfl
    orientation := .inl rfl }

/-- One screen is one buffer, at every rotation (20_memory.md R61, R37 (e)). -/
theorem screenBytes_eq (h : s.Inv) : s.screenBytes = s.cfg.bufBytes := by
  obtain ⟨hw, hh, -, -⟩ := panel_side_toNat s.cfg
  unfold State.screenBytes Params.bufBytes
  rw [h.width, h.height, rotW, rotH]
  split
  · rw [hw, hh, Nat.mul_comm s.cfg.panelH]
  · rw [hw, hh]

/-- The length of a transfer fits its 32 bits (00_scope.md R7). -/
theorem screenBytes_toNat (h : s.Inv) : (BitVec.ofNat 32 s.screenBytes).toNat = s.screenBytes := by
  obtain ⟨⟨-, -, -, -, hpanel⟩, -⟩ := s.cfg.bounds
  rw [h.screenBytes_eq, Params.bufBytes, BitVec.toNat_ofNat]
  exact Nat.mod_eq_of_lt (by omega)

theorem transferStarted (h : s.Inv) (hready : s.pdState = .ready) {addr : Word}
    (hrange : rangeInMem s.cfg.toParams addr.toNat s.screenBytes = true) : (s.transferStarted addr).Inv :=
  { h with
    gramForm := events_keep_gram_wf h.gramForm _
    busyIff := by simp [State.transferStarted]
    activeIff := by simp [State.transferStarted]
    csIff := by simp [State.transferStarted, csAfter]
    dcHigh := by simp [State.transferStarted, dcAfter]
    pdStates := .inr (.inr rfl)
    rstHigh := by simp [State.transferStarted, h.rstHigh, (wholeItems_screenWindow s).lines.2, rstAfter]
    orientation := .inl (by simpa [hready, State.transferStarted] using h.orientation)
    rangeInside := by
      have hlen := h.screenBytes_toNat
      simp only [rangeInMem, decide_eq_true_eq] at hrange
      intro _
      show addr.toNat + (BitVec.ofNat 32 s.screenBytes).toNat ≤ s.cfg.memBytes
      omega
    progress := fun _ => ⟨BitVec.le_refl _, by simp [State.transferStarted]⟩
    doneIff := fun _ => decide_eq_true_iff }

theorem transferEnded (h : s.Inv) (hactive : s.dma.active = true) : s.transferEnded.Inv :=
  have hbusy := h.busyIff.2 (h.activeIff.2 hactive)
  { h with
    gramForm := events_keep_gram_wf h.gramForm _
    busyIff := by simp [State.transferEnded]
    activeIff := by simp [State.transferEnded]
    csIff := by simp [State.transferEnded, csAfter]
    dcHigh := by simp [State.transferEnded]
    pdStates := .inr (.inl rfl)
    orientation := .inl (by simpa [hbusy, State.transferEnded] using h.orientation)
    rangeInside := by simp [State.transferEnded]
    progress := by simp [State.transferEnded]
    doneIff := by simp [State.transferEnded] }

/-- The pointer moves by one byte when one byte less is left. -/
theorem pointer_step (base len rem : Word) (hle : rem ≤ len) (hne : rem ≠ 0) :
    rem - 1 ≤ len ∧ base + (len - rem) + 1 = base + (len - (rem - 1)) := by
  constructor <;> bv_omega

/-- DMA sends one byte of the transfer in flight (40_bus_transport.md R125). -/
theorem dmaSend (h : s.Inv) (hact : s.dma.active = true) (hrem : s.dma.rem ≠ 0) : s.dmaSend.Inv := by
  have hx := h.activeIff.2 hact
  obtain ⟨hle, hptr⟩ := h.progress hx
  have hdone : s.dma.done = false := by
    rw [← Bool.not_eq_true, h.doneIff hx]; exact hrem
  exact { h with
    gramForm := events_keep_gram_wf h.gramForm _
    progress := fun _ => by
      have := pointer_step s.dma.base s.dma.len s.dma.rem hle hrem
      rw [← hptr] at this
      exact this
    doneIff := fun _ => by simp [State.dmaSend, hdone] }

theorem dmaTurn (h : s.Inv) : s.dmaTurn.Inv := by
  rcases dmaTurn_cases s with ⟨hact, hrem, ht⟩ | ⟨-, ht⟩ <;> rw [ht]
  · exact h.dmaSend hact hrem
  · exact h

/-- Every instruction keeps the invariant. -/
theorem effect (h : s.Inv) {i : Instr} {t : State} (ht : Effect s i t) : t.Inv := by
  cases ht with
  | answer v _ _ => exact h.done v
  | drop _ => exact h.countOob.done 1
  | send _ hready hu hes =>
    have hx := h.idle_of_not_busy (by simp [hready])
    cases hu with
    | whole => exact (h.emit hx hes).done 1
    | counted _ => exact (h.countOob.emit hx hes).done 1
  | draw _ _ hu _ => exact ((h.clamped hu).memWrite _ _).done 1
  | clear hready hes =>
    have hx := h.idle_of_not_busy (by simp [hready])
    exact (((h.memWrite _ _).memWrite _ _).emit hx hes).done 1
  | swap => exact h.swap.done 1
  | bringUp hfirst _ => exact (h.broughtUp hfirst).done 1
  | rotate hready => exact (h.applyRotation hready _).done 1
  | startTransfer _ hready hrange => exact (h.transferStarted hready hrange).done 1
  | endTransfer _ hactive _ => exact (h.transferEnded hactive).done 1
  | endNoTransfer hflight hactive => exact absurd (h.idle_of_inactive hactive) hflight
  | receive es _ => exact h.receive es

end State.Inv

/-- Settles O4: by cases on what a step can do. -/
theorem stepKeepsInvariant : Obligations.StepKeepsInvariant := by
  intro s t h hstep
  cases step_move hstep with
  | operation _ heff => exact h.effect heff
  | reset es => exact h.consume.engineReset es
  | idle _ => exact h.lowerValid
  | accept _ w => exact h.consume.accept w
  | otherDriver _ es => exact h.consume.receive es
  | dma _ => exact h.consume.dmaTurn

/-! ### The HOST's side of the port (10_state.md R29, R52) -/

/-- What an instruction leaves of the port and of what stands beside the machine: the latches, the parameters, the
inputs, the number of resets. -/
structure SamePort (s t : State) : Prop where
  cfg : t.cfg = s.cfg
  inputs : t.inputs = s.inputs
  op : t.op = s.op
  a0 : t.a0 = s.a0
  a1 : t.a1 = s.a1
  a2 : t.a2 = s.a2
  a3 : t.a3 = s.a3
  a4 : t.a4 = s.a4
  memEpoch : t.memEpoch = s.memEpoch

/-- No instruction moves a latch, a parameter or an input. -/
theorem Effect.samePort {s t : State} {i : Instr} (h : Effect s i t) : SamePort s t := by
  cases h with
  | send _ _ hu _ => cases hu <;> constructor <;> simp
  | draw _ _ hu _ => cases hu <;> constructor <;> simp [State.pixStores]
  | clear _ _ => constructor <;> simp [State.clearBuffers]
  | bringUp _ _ => constructor <;> simp [State.broughtUp]
  | rotate _ => constructor <;> simp [State.applyRotation]
  | startTransfer _ _ _ => constructor <;> simp [State.transferStarted]
  | endTransfer _ _ _ => constructor <;> simp [State.transferEnded]
  | _ => constructor <;> simp

/-- A host operation ends in its response (00_scope.md R14). -/
theorem Effect.responds {s t : State} {i : Instr} (h : Effect s i t) (hi : hostOperation i = true) :
    t.busy = false ∧ t.rspValid = true := by
  cases h with
  | receive _ hw => rw [hi] at hw; cases hw
  | _ => exact ⟨rfl, rfl⟩

/-- Settles O18: the step is the operation in the latches, a host operation. -/
theorem busyPortAcceptsNothing : Obligations.BusyPortAcceptsNothing := by
  intro s t w rest hb hin hstep
  rw [step_of_busy hb (by simp [hin])] at hstep
  have heff := exec_effect hstep
  have hport := heff.samePort
  obtain ⟨hbusy, hvalid⟩ := heff.responds (Laws.hostOperation_decodeCw _ _)
  exact ⟨hport.inputs, hbusy, hvalid, hport.cfg, hport.op, hport.a0, hport.a1, hport.a2, hport.a3, hport.a4⟩

/-- Settles O15: the latches' word decodes as the obligation writes it out. -/
theorem stepRunsLatchedOperation : Obligations.StepRunsLatchedOperation := by
  intro s i hb hin hdec
  have hi : s.latchedInstr = i := by
    cases hdec
    rfl
  rw [step_of_busy hb hin, hi]

/-- Settles O17: the word's fields go to the latches, and the input item is used up. -/
theorem freePortAcceptsWord : Obligations.FreePortAcceptsWord := by
  intro s w rest hb hin
  rw [step_of_cmd hb hin]
  simp [State.accept, State.latch, State.consume, hin, cwOp, cwA0, cwA1, cwA2, cwA3, cwA4]

/-! ### The diagnostic counter (10_state.md R34) -/

/-- A saturating increment that changes the counter is an increment below the top. -/
theorem satInc_of_ne {v : Word} (h : satInc v ≠ v) : satInc v = v + 1 ∧ v ≠ 0xFFFFFFFF := by
  by_cases hv : v = 0xFFFFFFFF
  · exact absurd (by simp [satInc, hv]) h
  · exact ⟨if_neg hv, hv⟩

/-- The counter after an instruction: as before, or counted once by an operation that drops or clamps. -/
theorem Effect.diagOob {s t : State} {i : Instr} (h : Effect s i t) :
    t.diagOob = s.diagOob ∨ (t.diagOob = satInc s.diagOob ∧ t.rsp = 1 ∧ dropsOrClamps i = true) := by
  cases h with
  | drop hi => exact .inr ⟨rfl, rfl, hi⟩
  | send _ _ hu _ =>
    cases hu with
    | whole => exact .inl rfl
    | counted hi => exact .inr ⟨rfl, rfl, hi⟩
  | draw _ _ hu _ =>
    cases hu with
    | whole => exact .inl rfl
    | counted hi => exact .inr ⟨rfl, rfl, hi⟩
  | clear _ _ => exact .inl (by simp [State.clearBuffers])
  | bringUp _ _ => exact .inl (by simp [State.broughtUp])
  | rotate _ => exact .inl (by simp [State.applyRotation])
  | startTransfer _ _ _ => exact .inl (by simp [State.transferStarted])
  | endTransfer _ _ _ => exact .inl (by simp [State.transferEnded])
  | _ => exact .inl rfl

/-- Settles O39: only a drop or a clamp moves the counter, and only from below its top. -/
theorem onlyDropsAndClampsCount : Obligations.OnlyDropsAndClampsCount := by
  intro s t i hexec hne
  rcases (exec_effect hexec).diagOob with heq | ⟨hinc, hrsp, hi⟩
  · exact absurd heq hne
  · rw [hinc] at hne ⊢
    obtain ⟨hstep, hlow⟩ := satInc_of_ne hne
    exact ⟨hstep, hlow, hrsp, (dropsOrClamps_iff i).1 hi⟩

/-! ### Engine memory (10_state.md R32, 20_memory.md R64) -/

theorem byteAt_congr {s t : State} (hm : t.mem = s.mem) (he : t.memEpoch = s.memEpoch) (a : Nat) :
    t.byteAt a = s.byteAt a := by
  unfold State.byteAt
  rw [hm, he]

@[simp] theorem bufBase_zero (p : Params) : bufBase p 0 = 0 := by simp [bufBase, buf0Base]

@[simp] theorem bufBase_one (p : Params) : bufBase p 1 = p.bufBytes := by simp [bufBase, buf0Base]

/-- Clearing the buffers leaves every byte above them (43_framebuffer.md R202). -/
theorem byteAt_clearBuffers_above (s : State) {a : Nat} (h : 2 * s.cfg.bufBytes ≤ a) :
    s.clearBuffers.byteAt a = s.byteAt a := by
  have hlen : 2 * (s.cfg.panelW * s.cfg.panelH) = s.cfg.bufBytes := Nat.mul_comm _ _
  have hfirst : bufBase s.cfg.toParams 0 + 2 * (s.cfg.panelW * s.cfg.panelH) ≤ a := by
    rw [bufBase_zero]; omega
  have hsecond : bufBase s.cfg.toParams 1 + 2 * (s.cfg.panelW * s.cfg.panelH) ≤ a := by
    rw [bufBase_one]; omega
  unfold State.clearBuffers
  rw [byteAt_memWrite_outside _ _ _ _ (.inr (by rwa [wirePixels_length])),
    byteAt_memWrite_outside _ _ _ _ (.inr (by rwa [wirePixels_length]))]

/-- Drawing inside the screen leaves every byte outside the back buffer. -/
theorem byteAt_pixStores_outside {s : State} (h : s.Inv) {k n : Nat} (c : Half)
    (hin : k + n ≤ s.effW.toNat * s.effH.toNat) {a : Nat}
    (ha : a < bufBase s.cfg.toParams s.back ∨ bufBase s.cfg.toParams s.back + s.cfg.bufBytes ≤ a) :
    (s.pixStores s.back k n c).byteAt a = s.byteAt a := by
  have hscreen := h.screenBytes_eq
  unfold State.screenBytes at hscreen
  rw [byteAt_pixStores, if_neg (by omega)]

/-- A byte after an instruction: as before, or one that FB_INIT cleared or a drawing operation wrote. -/
theorem Effect.byteAt {s t : State} {i : Instr} (h : s.Inv) (heff : Effect s i t) (a : Nat) :
    t.byteAt a = s.byteAt a ∨ (i = .fbInit ∧ a < 2 * s.cfg.bufBytes)
      ∨ (drawsBack i = true ∧ bufBase s.cfg.toParams s.back ≤ a
        ∧ a < bufBase s.cfg.toParams s.back + s.cfg.bufBytes) := by
  cases heff with
  | send _ _ hu _ => cases hu <;> exact .inl rfl
  | clear _ _ =>
    rcases Nat.lt_or_ge a (2 * s.cfg.bufBytes) with ha | ha
    · exact .inr (.inl ⟨rfl, ha⟩)
    · exact .inl (byteAt_clearBuffers_above s ha)
  | draw hi _ hu hin =>
    by_cases ha : a < bufBase s.cfg.toParams s.back ∨ bufBase s.cfg.toParams s.back + s.cfg.bufBytes ≤ a
    · cases hu with
      | whole => exact .inl (byteAt_pixStores_outside h _ hin ha)
      | counted _ => exact .inl (byteAt_pixStores_outside h.countOob _ hin ha)
    · exact .inr (.inr ⟨hi, by omega, by omega⟩)
  | bringUp _ _ => exact .inl (byteAt_congr (by simp [State.broughtUp]) (by simp [State.broughtUp]) a)
  | rotate _ => exact .inl (byteAt_congr (by simp [State.applyRotation]) (by simp [State.applyRotation]) a)
  | startTransfer _ _ _ =>
    exact .inl (byteAt_congr (by simp [State.transferStarted]) (by simp [State.transferStarted]) a)
  | endTransfer _ _ _ =>
    exact .inl (byteAt_congr (by simp [State.transferEnded]) (by simp [State.transferEnded]) a)
  | _ => exact .inl rfl

/-- Settles O40: a byte that changed is one that FB_INIT cleared or a drawing operation wrote. -/
theorem onlyDrawingWritesMemory : Obligations.OnlyDrawingWritesMemory :=
  fun _ _ _ a h hexec hne => ((exec_effect hexec).byteAt h a).resolve_left hne

/-! ### The reset state (10_state.md R50, R51) -/

/-- Settles O1: the panel's sides fit their 16 bits (00_scope.md R7). -/
theorem resetGivesEngineValues : Obligations.ResetGivesEngineValues := by
  intro c
  obtain ⟨hw, hh, -, -⟩ := panel_side_toNat c
  exact ⟨rfl, rfl, rfl, rfl, rfl, rfl, rfl, rfl, rfl, rfl, rfl, rfl, rfl, hw, hh, rfl, rfl, rfl, rfl,
    fun _ => rfl, rfl, rfl, rfl, rfl, rfl, rfl, rfl, rfl⟩

/-- A panel memory with every cell unwritten shows no pixel (10_state.md R45). -/
theorem cell_of_unwritten {p : Params} {r : Rx} (h : r.gram = Gram.unwritten p) (pc pr : Nat) :
    r.cell pc pr = none := by
  unfold Rx.cell
  rw [h, Gram.unwritten, List.getElem?_replicate]
  split
  · rw [Option.bind_some, List.getElem?_replicate]
    split <;> rfl
  · rfl

/-- The reset line's falling edge (41_receiver.md R159). -/
theorem event_rst_low (p : Params) {r : Rx} (h : r.rst = true) :
    Rx.event p r (.rst false) = Rx.panelReset p r := by
  simp [Rx.event, Rx.resetLine, h]

/-- Settles O2: power-on first, then the falling edge of the reset line. -/
theorem receiverResetValues : Obligations.ReceiverResetValues := by
  refine ⟨fun c => ?_, fun c r hr => ?_⟩
  · obtain ⟨-, -, hw, hh⟩ := panel_side_toNat c
    have hcell : ∀ pc pr, (State.resetOf c).rx.cell pc pr = none := cell_of_unwritten rfl
    exact ⟨rfl, rfl, rfl, rfl, rfl, rfl, hw, rfl, hh, rfl, rfl, rfl, rfl, rfl, rfl, hcell, rfl, rfl, rfl, rfl⟩
  · obtain ⟨-, -, hw, hh⟩ := panel_side_toNat c
    have hcell : ∀ pc pr, (Rx.panelReset c.toParams r).cell pc pr = none := cell_of_unwritten rfl
    rw [event_rst_low c.toParams hr]
    exact ⟨rfl, rfl, rfl, rfl, rfl, rfl, hw, rfl, hh, rfl, rfl, rfl, rfl, rfl, rfl, hcell, rfl, rfl, rfl, rfl⟩

/-- Both ends of the link are in their reset states (41_receiver.md R160). -/
theorem resetOf_linkClean (c : Config) : (State.resetOf c).LinkClean where
  lines := ⟨rfl, rfl, rfl⟩
  noViol := rfl
  settled := fun h => absurd rfl h
  sameOrient := fun h => absurd rfl h
  command := fun h => absurd rfl h
  whole := fun h => by cases h
  streaming := fun h => by cases h

/-- Settles O3: the empty trace stands between items, and both ends of the link are in their reset states. -/
theorem resetMeetsInvariants : Obligations.ResetMeetsInvariants :=
  fun c => ⟨resetOf_inv c, rfl, resetOf_linkClean c⟩

end Sys2Proof.Machine
end

/-! ## The range of a transfer in flight (20_memory.md R78, 43_framebuffer.md R201) -/

section

namespace Sys2Proof.Machine

open Sys2Proof

section

variable {s t : State}

/-- The range of the transfer in flight is where it was, and so is every byte in it (20_memory.md R78). -/
structure RangeKept (s t : State) : Prop where
  bytes : ∀ a, s.dma.base.toNat ≤ a → a < s.dma.base.toNat + s.dma.len.toNat → t.byteAt a = s.byteAt a
  base : t.dma.base = s.dma.base
  len : t.dma.len = s.dma.len

/-- What moves neither engine memory nor the range keeps its bytes. -/
theorem RangeKept.of_same_memory (hmem : t.mem = s.mem) (hepoch : t.memEpoch = s.memEpoch)
    (hbase : t.dma.base = s.dma.base) (hlen : t.dma.len = s.dma.len) : RangeKept s t :=
  ⟨fun a _ _ => byteAt_congr hmem hepoch a, hbase, hlen⟩

/-- The ownership interlock: a back buffer that is not owned holds no byte of the range (43_framebuffer.md R201). -/
theorem outside_back_of_not_owned (hflight : s.xfer = .inFlight) (hfree : s.owned = false) {a : Nat}
    (hlow : s.dma.base.toNat ≤ a) (hhigh : a < s.dma.base.toNat + s.dma.len.toNat) :
    a < bufBase s.cfg.toParams s.back ∨ bufBase s.cfg.toParams s.back + s.cfg.bufBytes ≤ a := by
  simp only [State.owned, hflight, true_and, decide_eq_false_iff_not] at hfree
  omega

/-- Drawing, whether or not it counted a clamp, leaves the range of the transfer in flight. -/
theorem RangeKept.of_draw {i : Instr} {u : State} {k n : Nat} {c : Half} (h : s.Inv) (hflight : s.xfer = .inFlight)
    (hfree : s.owned = false) (hu : Clamped s i u) (hin : k + n ≤ s.effW.toNat * s.effH.toNat) :
    RangeKept s ((u.pixStores s.back k n c).done 1) := by
  have hout := fun a => outside_back_of_not_owned hflight hfree (a := a)
  cases hu with
  | whole => exact ⟨fun a hlow hhigh => byteAt_pixStores_outside h c hin (hout a hlow hhigh), rfl, rfl⟩
  | counted _ => exact ⟨fun a hlow hhigh => byteAt_pixStores_outside h.countOob c hin (hout a hlow hhigh), rfl, rfl⟩

/-- An instruction after which the transfer is still in flight keeps its range: what needs Ready or a panel not yet up
does not run, what ends the transfer is excluded, and drawing is held off by the interlock. -/
theorem Effect.rangeKept {i : Instr} (h : s.Inv) (heff : Effect s i t) (hflight : s.xfer = .inFlight)
    (hstill : t.xfer = .inFlight) : RangeKept s t := by
  have hbusy : s.pdState = .busy := h.busyIff.2 hflight
  have hnot : ∀ {p : PdState}, s.pdState = p → p ≠ .busy → RangeKept s t := fun hp hne => absurd (hp ▸ hbusy) hne
  cases heff with
  | draw _ hfree hu hin => exact .of_draw h hflight hfree hu hin
  | send _ hready _ _ => exact hnot hready nofun
  | clear hready _ => exact hnot hready nofun
  | bringUp hfirst _ => exact hnot hfirst nofun
  | rotate hready => exact hnot hready nofun
  | startTransfer _ hready _ => exact hnot hready nofun
  | endTransfer _ _ _ => cases hstill
  | endNoTransfer _ _ => cases hstill
  | answer _ _ _ => exact .of_same_memory rfl rfl rfl rfl
  | drop _ => exact .of_same_memory rfl rfl rfl rfl
  | swap => exact .of_same_memory rfl rfl rfl rfl
  | receive _ _ => exact .of_same_memory rfl rfl rfl rfl

/-- DMA's turn moves the pointer inside the range and nothing of the range itself (40_bus_transport.md R125). -/
theorem RangeKept.of_dmaTurn (s : State) : RangeKept s s.dmaTurn := by
  rcases dmaTurn_cases s with ⟨-, -, ht⟩ | ⟨-, ht⟩ <;> rw [ht] <;> exact .of_same_memory rfl rfl rfl rfl

/-- A step of any agent after which the transfer is still in flight keeps its range; the ENGINE's own reset ends the
transfer (70_reset_and_hazards.md R240). -/
theorem Move.rangeKept (h : s.Inv) (hmove : Move s t) (hflight : s.xfer = .inFlight) (hstill : t.xfer = .inFlight) :
    RangeKept s t := by
  cases hmove with
  | operation _ heff => exact heff.rangeKept h hflight hstill
  | reset _ => cases hstill
  | dma _ =>
    obtain ⟨hbytes, hbase, hlen⟩ := RangeKept.of_dmaTurn s.consume
    exact ⟨hbytes, hbase, hlen⟩
  | idle _ => exact .of_same_memory rfl rfl rfl rfl
  | accept _ _ => exact .of_same_memory rfl rfl rfl rfl
  | otherDriver _ _ => exact .of_same_memory rfl rfl rfl rfl

end

/-- Settles O43: by cases on what a step can do. -/
theorem transferRangeIsUntouched : Obligations.TransferRangeIsUntouched := by
  intro s t a h hstep hflight hstill hlow hhigh
  obtain ⟨hbytes, hbase, hlen⟩ := (step_move hstep).rangeKept h hflight hstill
  exact ⟨hbytes a hlow hhigh, hbase, hlen⟩

end Sys2Proof.Machine
end

/-! ## Encodings (30_encoding.md), and the statements on them -/

section

namespace Sys2Proof

open Sys2Proof.Machine Sys2Proof.Laws

/-! ### The command decoder (30_encoding.md R92, R93, R98) -/

/-- The opcode map, opcode by opcode (30_encoding.md R92). -/
theorem opcodeInMap_iff (op : Byte) :
    opcodeInMap op = true ↔ op ∈ ([0x10, 0x11, 0x12, 0x13, 0x14, 0x15,
      0x20, 0x21, 0x22, 0x23, 0x24, 0x25, 0x26, 0x27, 0x28, 0x29] : List Byte) := by
  revert op
  decide +kernel

/-- The full profile assigns the whole opcode map (30_encoding.md R92). -/
theorem opcodeAssigned_of_full {k : ProfileKind} {op : Byte} (hk : k = .full) (h : opcodeInMap op = true) :
    opcodeAssigned k op = true := by
  simp [opcodeAssigned, hk, h]

/-- Every profile assigns what the minimal profile assigns (00_scope.md R18, 30_encoding.md R98). -/
theorem opcodeAssigned_of_minimal {op : Byte} (k : ProfileKind) (h : opcodeAssigned .minimal op = true) :
    opcodeAssigned k op = true := by
  cases k with
  | full => exact opcodeAssigned_of_full rfl (Bool.and_eq_true_iff.1 h).1
  | minimal => exact h

/-- A word with an assigned opcode decodes to the operation that its opcode names (30_encoding.md R92). -/
theorem decode_of_assigned {p : Params} {op : Byte} (h : opcodeAssigned p.profile op = true) (a0 a1 a2 a3 a4 : Word) :
    decode p (.cw (packCw op a0 a1 a2 a3 a4)) = .ok (decodeOperation op a0 a1 a2 a3 a4) := by
  rw [decode, decodeCw_packCw, if_pos h]

/-- A word with an unassigned opcode is RESERVED (30_encoding.md R98). -/
theorem decodeCw_of_unassigned {k : ProfileKind} {w : CommandWord} (h : opcodeAssigned k (cwOp w) = false) :
    decodeCw k w = .reserved (cwOp w) := by
  rw [decodeCw, h]
  exact if_neg Bool.false_ne_true

/-- The instruction that an opcode of the map names is the opcode's own row, stands for itself, and exists under the
profiles that assign the opcode (30_encoding.md R92, R98, R111). -/
theorem decodeOperation_of_inMap {op : Byte} (h : opcodeInMap op = true) (p : Params) (a0 a1 a2 a3 a4 : Word) :
    let i := decodeOperation op a0 a1 a2 a3 a4
    rowKey p i = op ∧ i.canonical = i ∧ WellFormed p i = opcodeAssigned p.profile op := by
  have hop := (opcodeInMap_iff op).1 h
  simp only [List.mem_cons, List.not_mem_nil, or_false] at hop
  obtain rfl | rfl | rfl | rfl | rfl | rfl | rfl | rfl | rfl | rfl | rfl | rfl | rfl | rfl | rfl | rfl := hop <;>
    exact ⟨rfl, rfl, by simp [decodeOperation, WellFormed, opcodeAssigned, opcodeInMap, opcodeFullOnly]⟩

/-- The same of the instruction that a command word decodes to, RESERVED among them: it exists under the profile. -/
theorem decodeCw_row (p : Params) (w : CommandWord) :
    let i := decodeCw p.profile w
    rowKey p i = cwOp w ∧ i.canonical = i ∧ WellFormed p i = true := by
  by_cases h : opcodeAssigned p.profile (cwOp w) = true
  · rw [decodeCw, if_pos h, ← h]
    exact decodeOperation_of_inMap (Bool.and_eq_true_iff.1 h).1 ..
  · rw [Bool.not_eq_true] at h
    rw [decodeCw_of_unassigned h]
    exact ⟨rfl, rfl, by simp [WellFormed, h]⟩

/-! ### The wire decoder (30_encoding.md R101, R105) -/

/-- A command byte that is none of the named ones begins a vendor command (41_receiver.md R152). -/
theorem wireCommand_vendor {p : Params} {b : Byte} (h : b ∉ p.namedCommands) (data : List Byte) :
    wireCommand p b data = .vendor b data := by
  simp only [Params.namedCommands, List.mem_cons, List.not_mem_nil, or_false, not_or] at h
  obtain ⟨hcol, hrow, hwrite, horient, hdispon⟩ := h
  rw [wireCommand, if_neg hwrite, if_neg hdispon, if_neg hcol, if_neg hrow, if_neg horient]

/-- What the wire decoder answers exists under every parameter set (30_encoding.md R101). -/
theorem wellFormed_wireCommand (c : Config) (b : Byte) (data : List Byte) :
    WellFormed c.toParams (wireCommand c.toParams b data) = true := by
  by_cases hb : b ∈ c.namedCommands
  · obtain ⟨hcol, hrow, hwrite, horient, hdispon⟩ := wireCommand_named c data
    simp only [Params.namedCommands, List.mem_cons, List.not_mem_nil, or_false] at hb
    obtain rfl | rfl | rfl | rfl | rfl := hb
    · rw [hcol, WellFormed]
    · rw [hrow, WellFormed]
    · rw [hwrite, WellFormed]
    · rw [horient, WellFormed]
    · rw [hdispon, WellFormed]
  · simp [wireCommand_vendor hb, WellFormed, hb]

/-- The wire encoder undoes the wire decoder (30_encoding.md R101, R105). -/
theorem encode_wireCommand (p : Params) (b : Byte) (data : List Byte) :
    encode p (wireCommand p b data) = .wire (b :: data) := by
  unfold wireCommand
  split_ifs <;> simp [encode, *]

/-! ### The encoder -/

/-- Every instruction is encoded in its own row of the opcode table (30_encoding.md R92, R101). -/
theorem encodingRow : ∀ i : Instr, EncodingRow.Statement i
  | .fbInit => EncodingRow.fbInit
  | .fbFill c => EncodingRow.fbFill c
  | .fbSetpixel x y c => EncodingRow.fbSetpixel x y c
  | .fbDrawline x y len c => EncodingRow.fbDrawline x y len c
  | .fbSwap => EncodingRow.fbSwap
  | .fbPresent => EncodingRow.fbPresent
  | .pdInit h => EncodingRow.pdInit h
  | .pdSetrot r => EncodingRow.pdSetrot r
  | .pdSetwin x0 y0 x1 y1 => EncodingRow.pdSetwin x0 y0 x1 y1
  | .pdWrdata addr len => EncodingRow.pdWrdata addr len
  | .pdFillrect x y w h c => EncodingRow.pdFillrect x y w h c
  | .pdDrawpixel x y c => EncodingRow.pdDrawpixel x y c
  | .pdSenddma addr => EncodingRow.pdSenddma addr
  | .pdDmadone => EncodingRow.pdDmadone
  | .pdGetw => EncodingRow.pdGetw
  | .pdGeth => EncodingRow.pdGeth
  | .pdWrpixels addr len => EncodingRow.pdWrpixels addr len
  | .reserved op => EncodingRow.reserved op
  | .columnRange data => EncodingRow.columnRange data
  | .rowRange data => EncodingRow.rowRange data
  | .beginMemoryWrite data => EncodingRow.beginMemoryWrite data
  | .orientation data => EncodingRow.orientation data
  | .displayOn data => EncodingRow.displayOn data
  | .vendor cmd data => EncodingRow.vendor cmd data

/-- A host operation is encoded as a command word with its row's opcode (30_encoding.md R90, R92). -/
theorem encode_of_hostOperation (p : Params) {i : Instr} (h : hostOperation i = true) :
    ∃ w, encode p i = .cw w ∧ cwOp w = rowKey p i := by
  obtain ⟨hkey, hformat⟩ := encodingRow i p
  cases hcode : encode p i with
  | cw w => exact ⟨w, rfl, by simpa [hcode, codeKey] using hkey⟩
  | wire bytes => simp [hcode, isCommandWord, h] at hformat

/-! ### Decoding what was encoded -/

/-- Settles O7: by cases on the instruction. The profile assigns the opcode of a host operation that exists under it,
and a command byte of the wire is one of the named ones or a vendor's. -/
theorem decodeUndoesEncode : Obligations.DecodeUndoesEncode := by
  intro c i h
  cases i with
  | fbInit | fbFill | fbSetpixel | fbDrawline | fbSwap | fbPresent | pdWrdata | pdSenddma | pdWrpixels =>
    rw [encode, decode_of_assigned (opcodeAssigned_of_full (of_decide_eq_true h) rfl)]
    simp [decodeOperation, Instr.canonical]
  | pdInit | pdSetrot | pdSetwin | pdFillrect | pdDrawpixel | pdDmadone | pdGetw | pdGeth =>
    rw [encode, decode_of_assigned (opcodeAssigned_of_minimal _ rfl)]
    simp [decodeOperation, Instr.canonical]
  | reserved op =>
    have hop : opcodeAssigned c.profile op = false := by simpa [WellFormed] using h
    simp [encode, decode, decodeCw_packCw, hop, Instr.canonical]
  | columnRange data =>
    obtain ⟨hcol, -⟩ := wireCommand_named c data
    exact congrArg Except.ok hcol
  | rowRange data =>
    obtain ⟨-, hrow, -⟩ := wireCommand_named c data
    exact congrArg Except.ok hrow
  | beginMemoryWrite data =>
    obtain ⟨-, -, hwrite, -⟩ := wireCommand_named c data
    exact congrArg Except.ok hwrite
  | orientation data =>
    obtain ⟨-, -, -, horient, -⟩ := wireCommand_named c data
    exact congrArg Except.ok horient
  | displayOn data =>
    obtain ⟨-, -, -, -, hdispon⟩ := wireCommand_named c data
    exact congrArg Except.ok hdispon
  | vendor cmd data =>
    have hcmd : cmd ∉ c.namedCommands := by simpa [WellFormed] using h
    exact congrArg Except.ok (wireCommand_vendor hcmd data)

/-- Settles O9: the decoded instruction exists under the profile, so that O7 says what its encoding decodes to. -/
theorem commandWordsDecodeTotally : Obligations.CommandWordsDecodeTotally := by
  intro c w
  obtain ⟨hrow, hcanonical, hwf⟩ := decodeCw_row c.toParams w
  have hhost := hostOperation_decodeCw c.profile w
  obtain ⟨w', hcode, hop⟩ := encode_of_hostOperation c.toParams hhost
  have hagain := decodeUndoesEncode c _ hwf
  rw [hcode, hcanonical] at hagain
  exact ⟨hwf, hhost, w', hcode, hop.trans hrow, Except.ok.inj hagain⟩

/-- Settles O8: decoder and encoder agree on every command byte, named or a vendor's. -/
theorem wireCommandsEncodeBack : Obligations.WireCommandsEncodeBack := by
  intro c b data
  exact ⟨wireCommand c.toParams b data, rfl, wellFormed_wireCommand c b data, hostOperation_wireCommand _ b data,
    encode_wireCommand _ b data⟩

/-! ### The operands of each operation (30_encoding.md R93, R94) -/

theorem operandHalf_eq_setWidth (a : Word) : operandHalf a = a.setWidth 16 :=
  (BitVec.setWidth_eq_extractLsb' (by decide)).symm

theorem operandRot_eq_setWidth (a : Word) : operandRot a = a.setWidth 2 :=
  (BitVec.setWidth_eq_extractLsb' (by decide)).symm

/-- The full profile decodes every opcode of the map by its row (30_encoding.md R92). -/
theorem decodeCw_full_packCw {op : Byte} (h : opcodeInMap op = true) (a0 a1 a2 a3 a4 : Word) :
    decodeCw .full (packCw op a0 a1 a2 a3 a4) = decodeOperation op a0 a1 a2 a3 a4 := by
  rw [decodeCw_packCw, if_pos (opcodeAssigned_of_full rfl h)]

/-- Settles O10: opcode by opcode, the row of `decodeOperation`. -/
theorem operandBitsUsed : Obligations.OperandBitsUsed := by
  intro a0 a1 a2 a3 a4 d
  have hd : ∀ op, opcodeInMap op = true → d op = decodeOperation op a0 a1 a2 a3 a4 :=
    fun op h => decodeCw_full_packCw h a0 a1 a2 a3 a4
  simp only [← operandHalf_eq_setWidth, ← operandRot_eq_setWidth]
  exact ⟨hd _ rfl, hd _ rfl, hd _ rfl, hd _ rfl, hd _ rfl, hd _ rfl, hd _ rfl, hd _ rfl,
    hd _ rfl, hd _ rfl, hd _ rfl, hd _ rfl, hd _ rfl, hd _ rfl, hd _ rfl, hd _ rfl⟩

/-- A number of 168 bits, given by the fields of the command word that it is, decodes under REFCFG by its opcode's row
(30_encoding.md R90, R92). -/
theorem decodeTableWord_packCw {n : Nat} {op : Byte} {a0 a1 a2 a3 a4 : Word}
    (hn : BitVec.ofNat 168 n = packCw op a0 a1 a2 a3 a4) (h : opcodeInMap op = true) :
    decodeTableWord 168 n = some (decodeOperation op a0 a1 a2 a3 a4) := by
  have hfull : decodeCw Params.ref.profile (BitVec.ofNat 168 n) = decodeOperation op a0 a1 a2 a3 a4 :=
    hn ▸ decodeCw_full_packCw h a0 a1 a2 a3 a4
  simp [decodeTableWord, tableCode, decode, hfull]

/-- Settles O11: each 168-bit word is cut into its fields; the bytes are looked up in REFCFG. -/
theorem sampleWordsDecode : Obligations.SampleWordsDecode := by
  refine ⟨?fillrect, ?setpixel, ?init, rfl, rfl⟩
  case fillrect =>
    exact decodeTableWord_packCw (op := 0x24) (a0 := 159) (a1 := 0) (a2 := 10) (a3 := 1) (a4 := 0x1F) rfl rfl
  case setpixel =>
    exact decodeTableWord_packCw (op := 0x12) (a0 := 2) (a1 := 1) (a2 := 0xF800) (a3 := 0) (a4 := 0) rfl rfl
  case init =>
    exact decodeTableWord_packCw (op := 0x20) (a0 := 1) (a1 := 0) (a2 := 0) (a3 := 0) (a4 := 0) rfl rfl

/-! ### The init table as a ROM (30_encoding.md R108) -/

/-- The parameter count that an entry's flag byte holds. -/
theorem romFlags_count {e : InitEntry} (h : e.params.length ≤ 127) :
    ((romFlags e).extractLsb' 0 7).toNat = e.params.length := by
  have hcount : (romFlags e).extractLsb' 0 7 = BitVec.ofNat 7 e.params.length := BitVec.extractLsb'_append_eq_right
  rw [hcount, BitVec.toNat_ofNat, Nat.mod_eq_of_lt (by omega)]

/-- The delay flag of an entry's flag byte. -/
theorem romFlags_delay (e : InitEntry) : (romFlags e)[7] = e.delay.isSome := by
  rw [romFlags, ← BitVec.getLsbD_eq_getElem, BitVec.getLsbD_append]
  simp

/-- The two bytes of a delay, put together again. -/
theorem delay_bytes (d : BitVec 16) : d.extractLsb' 8 8 ++ d.extractLsb' 0 8 = d := by
  rw [BitVec.extractLsb'_append_extractLsb'_eq_extractLsb' (by decide)]
  exact BitVec.extractLsb'_eq_self

/-- An entry at the head of a ROM is read back, and the rest of the ROM is left. -/
theorem romReadEntry_romEntry {e : InitEntry} (h : e.params.length ≤ 127) (rest : List Byte) :
    romReadEntry (romEntry e ++ rest) = some (e, rest) := by
  obtain ⟨cmd, params, delay⟩ := e
  cases delay with
  | none => simp [romEntry, romReadEntry, romFlags_count h, romFlags_delay, romDelay]
  | some d => simp [romEntry, romReadEntry, romFlags_count h, romFlags_delay, romDelay, delay_bytes]

/-- The entries of a table within R8's bound are read back, and nothing is left. -/
theorem romReadEntries_flatMap (t : List InitEntry) (h : ∀ e ∈ t, e.params.length ≤ 127) :
    romReadEntries t.length (t.flatMap romEntry) = some t := by
  induction t with
  | nil => rfl
  | cons e t ih =>
    obtain ⟨he, ht⟩ := List.forall_mem_cons.1 h
    simp [romReadEntries, romReadEntry_romEntry he, ih ht]

/-- Settles O12: the count byte holds the number of entries, and the entries are read back one by one. -/
theorem romHoldsInitTable : Obligations.RomHoldsInitTable := by
  intro t hlen hparams
  have hcount : (BitVec.ofNat 8 t.length).toNat = t.length := by
    rw [BitVec.toNat_ofNat, Nat.mod_eq_of_lt (by omega)]
  rw [romEncode, romDecode, hcount, romReadEntries_flatMap t hparams]

end Sys2Proof
end

/-! ## Streams, reserved words and wire commands in a step -/

section

namespace Sys2Proof.Machine

open Sys2Proof

/-! ### Data brackets (41_receiver.md R145) -/

/-- Opening a data bracket where one is open changes nothing. -/
theorem reopen_data {t : Rx} (hcs : t.cs = false) (hdc : t.dc = true) : { t with cs := false, dc := true } = t := by
  rw [← hcs, ← hdc]

/-- Settles O51: bytes leave the lines alone, so that the second bracket opens where the first one was closed. -/
theorem streamCutsAreInvisible : Obligations.StreamCutsAreInvisible := by
  intro c r xs ys
  have hlines := bytes_sameLines c.toParams { r with cs := false, dc := true } xs
  rw [Rx.events_append, rx_btData, rx_btData, rx_btData, List.foldl_append]
  dsimp only
  rw [reopen_data hlines.cs hlines.dc]

/-! ### RESERVED (30_encoding.md R98) -/

/-- RESERVED is refused. -/
theorem exec_reserved : ∀ (op : Byte) (s : State), exec (.reserved op) s = .next s.refuse := by intros; rfl

/-- Settles O14: a refusal is the response 0 with nothing else changed (00_scope.md R14). -/
theorem reservedAnswersZero : Obligations.ReservedAnswersZero := exec_reserved

/-- The opcodes outside the map, and those that the minimal profile reserves, are unassigned. -/
theorem opcodeAssigned_of_reserved {k : ProfileKind} {op : Byte}
    (h : op ≤ 0x0F ∨ (0x16 ≤ op ∧ op ≤ 0x1F) ∨ 0x2A ≤ op
      ∨ (k = .minimal ∧ ((0x10 ≤ op ∧ op ≤ 0x15) ∨ op = 0x23 ∨ op = 0x26))) :
    opcodeAssigned k op = false := by
  cases k <;> revert op <;> decide +kernel

/-- A word with an unassigned opcode, once accepted, is RESERVED. -/
theorem latchedInstr_accept_of_unassigned {s : State} {w : CommandWord}
    (h : opcodeAssigned s.cfg.profile (cwOp w) = false) : (s.accept w).latchedInstr = .reserved (cwOp w) := by
  have hop : cwOp (s.accept w).latchedWord = cwOp w := cwOp_packCw ..
  rw [State.latchedInstr, decodeCw_of_unassigned (by rwa [hop]), hop]

/-- Settles O13: the first step accepts the word, the second one refuses RESERVED. -/
theorem reservedWordsAreRefused : Obligations.ReservedWordsAreRefused := by
  intro s w rest hb hin hstay hop
  refine ⟨s.consume.accept w, step_of_cmd hb hin, rfl, ?_⟩
  have hinputs : (s.consume.accept w).inputs = rest := by simp [hin]
  rw [step_of_busy rfl (by rwa [hinputs]),
    latchedInstr_accept_of_unassigned (s := s.consume) (opcodeAssigned_of_reserved hop), exec_reserved]
  simp [State.refuse, State.done, State.accept, State.latch, State.consume, hin, cwOp, cwA0, cwA1, cwA2, cwA3, cwA4]

/-! ### Wire commands in a step (30_encoding.md R105) -/

/-- With no operation in progress a step runs the wire command offered. -/
theorem step_of_wire {s : State} {bytes : List Byte} {rest : List Input} (hb : s.busy = false)
    (hin : s.inputs = .wire bytes :: rest) : step s = runWire { s with inputs := rest, rspValid := false } bytes := by
  simp [step, stepIdle, State.consume, hb, hin]

/-- Settles O16: the step runs what the wire decoder answers. -/
theorem stepRunsWireCommand : Obligations.StepRunsWireCommand := by
  intro s bytes rest hb hin
  rw [step_of_wire hb hin]
  constructor
  · intro i hdec
    simp only [runWire, hdec]
  · intro e hdec
    simp only [runWire, hdec]

end Sys2Proof.Machine
end

/-! ## The bus transport: the shape of the trace and DMA's turns (40_bus_transport.md) -/

section

namespace Sys2Proof.Machine

open Sys2Proof

/-! ### Where a trace stands after more events (40_bus_transport.md R130) -/

theorem shapeOf_append (p : Params) (es fs : List Event) :
    shapeOf p (es ++ fs) = fs.foldl (shapeStep p) (shapeOf p es) := List.foldl_append

/-- A data bracket stays open over bytes. -/
theorem shape_bytes (p : Params) (bs : List Byte) :
    (bs.map Event.tx).foldl (shapeStep p) .dataOpen = .dataOpen := by
  induction bs with
  | nil => rfl
  | cons b bs ih => exact ih

/-- Whole items lead from between items to between items. -/
theorem WholeItems.shape {p : Params} {es : List Event} (h : WholeItems p es) :
    es.foldl (shapeStep p) .closed = .closed := by
  induction h with
  | nil => rfl
  | command b => rfl
  | data bs => simp [btData, shapeStep, shape_bytes]
  | wait ms => rfl
  | pulse => simp [resetPulse, shapeStep]
  | append _ _ ihe ihf => rw [List.foldl_append, ihe, ihf]

/-! ### The shape of the trace, operation by operation -/

namespace State.traceShaped

variable {s : State}

theorem shape_idle (h : s.traceShaped) (hx : s.xfer = .idle) : shapeOf s.cfg.toParams s.trace = .closed := by
  rw [h, hx]
  rfl

theorem shape_inFlight (h : s.traceShaped) (hx : s.xfer = .inFlight) :
    shapeOf s.cfg.toParams s.trace = .dataOpen := by
  rw [h, hx]
  rfl

theorem of_idle (hx : s.xfer = .idle) (hs : shapeOf s.cfg.toParams s.trace = .closed) : s.traceShaped := by
  rw [State.traceShaped, hs, hx]
  rfl

theorem of_inFlight (hx : s.xfer = .inFlight) (hs : shapeOf s.cfg.toParams s.trace = .dataOpen) :
    s.traceShaped := by
  rw [State.traceShaped, hs, hx]
  rfl

/-- Only the parameters, the trace and the Transfer State decide the shape. -/
theorem of_same_trace {t : State} (h : s.traceShaped) (hcfg : t.cfg = s.cfg) (htrace : t.trace = s.trace)
    (hxfer : t.xfer = s.xfer) : t.traceShaped := by
  rw [State.traceShaped, hcfg, htrace, hxfer]
  exact h

theorem clamped (h : s.traceShaped) {i : Instr} {u : State} (hu : Clamped s i u) : u.traceShaped := by
  cases hu with
  | whole => exact h
  | counted _ => exact h.of_same_trace rfl rfl rfl

theorem emit (h : s.traceShaped) (hx : s.xfer = .idle) {es : List Event} (hes : WholeItems s.cfg.toParams es) :
    (s.emit es).traceShaped :=
  of_idle hx (by rw [State.emit_cfg, State.emit_trace, shapeOf_append, h.shape_idle hx, hes.shape])

/-- A transfer opens its data bracket after the window's whole brackets (40_bus_transport.md R123). -/
theorem transferStarted (h : s.traceShaped) (hx : s.xfer = .idle) (addr : Word) :
    (s.transferStarted addr).traceShaped := by
  refine of_inFlight rfl ?_
  show shapeOf s.cfg.toParams (s.trace ++ (s.screenWindow ++ [.cs false, .dc true])) = .dataOpen
  rw [shapeOf_append, List.foldl_append, h.shape_idle hx, (wholeItems_screenWindow s).shape]
  rfl

/-- The end of a transfer closes its data bracket (40_bus_transport.md R124). -/
theorem transferEnded (h : s.traceShaped) (hx : s.xfer = .inFlight) : s.transferEnded.traceShaped := by
  refine of_idle rfl ?_
  show shapeOf s.cfg.toParams (s.trace ++ [.cs true]) = .closed
  rw [shapeOf_append, h.shape_inFlight hx]
  rfl

/-- DMA's byte goes into the open data bracket (40_bus_transport.md R125). -/
theorem dmaSend (h : s.traceShaped) (hx : s.xfer = .inFlight) : s.dmaSend.traceShaped := by
  refine of_inFlight hx ?_
  show shapeOf s.cfg.toParams (s.trace ++ [.tx (s.byteAt s.dma.ptr.toNat)]) = .dataOpen
  rw [shapeOf_append, h.shape_inFlight hx]
  rfl

theorem dmaTurn (h : s.traceShaped) (hinv : s.Inv) : s.dmaTurn.traceShaped := by
  rcases dmaTurn_cases s with ⟨hact, -, ht⟩ | ⟨-, ht⟩ <;> rw [ht]
  · exact h.dmaSend (hinv.activeIff.2 hact)
  · exact h

/-- The ENGINE's own reset starts the trace again, with no transfer (70_reset_and_hazards.md R240). -/
theorem engineReset (s : State) (es : List Event) : (s.engineReset es).traceShaped := of_idle rfl rfl

/-- Every instruction keeps the shape: what sends whole items runs outside a transfer, by its guard on `pd_state`
(10_state.md R37 (a)), and only PD_SENDDMA and PD_DMADONE open and close the transfer's bracket. -/
theorem effect (h : s.traceShaped) (hinv : s.Inv) {i : Instr} {t : State} (ht : Effect s i t) : t.traceShaped := by
  have hidle : ∀ {p : PdState}, s.pdState = p → p ≠ .busy → s.xfer = .idle := fun hp hne =>
    hinv.idle_of_not_busy (hp ▸ hne)
  cases ht with
  | send _ hready hu hes =>
    have hx := hidle hready nofun
    cases hu with
    | whole => exact (h.emit hx hes).of_same_trace rfl rfl rfl
    | counted hi => exact ((h.clamped (.counted hi)).emit hx hes).of_same_trace rfl rfl rfl
  | clear hready hes => exact (h.emit (hidle hready nofun) hes).of_same_trace rfl rfl rfl
  | bringUp hfirst _ =>
    exact (h.emit (hidle hfirst nofun) (wholeItems_initEvents s.cfg)).of_same_trace rfl rfl rfl
  | rotate hready =>
    exact (h.emit (hidle hready nofun) (wholeItems_orientCommand _ _)).of_same_trace rfl rfl rfl
  | @startTransfer addr _ hready _ =>
    exact (h.transferStarted (hidle hready nofun) addr).of_same_trace rfl rfl rfl
  | endTransfer _ hactive _ => exact (h.transferEnded (hinv.activeIff.2 hactive)).of_same_trace rfl rfl rfl
  | endNoTransfer hflight hactive => exact absurd (hinv.idle_of_inactive hactive) hflight
  | draw _ _ hu _ => exact (h.clamped hu).of_same_trace rfl rfl rfl
  | answer _ _ _ => exact h.of_same_trace rfl rfl rfl
  | drop _ => exact h.of_same_trace rfl rfl rfl
  | swap => exact h.of_same_trace rfl rfl rfl
  | receive _ _ => exact h.of_same_trace rfl rfl rfl

end State.traceShaped

/-- Settles O44: by cases on what a step can do. -/
theorem traceKeepsItsShape : Obligations.TraceKeepsItsShape := by
  intro s t hinv h hstep
  cases step_move hstep with
  | operation _ heff => exact h.effect hinv heff
  | reset es => exact .engineReset _ es
  | dma _ => exact State.traceShaped.dmaTurn (h.of_same_trace rfl rfl rfl) hinv.consume
  | idle _ => exact h.of_same_trace rfl rfl rfl
  | accept _ _ => exact h.of_same_trace rfl rfl rfl
  | otherDriver _ _ => exact h.of_same_trace rfl rfl rfl

/-! ### DMA's turn in a step (40_bus_transport.md R125) -/

section

variable {s : State}

theorem dmaTurn_of_left (hact : s.dma.active = true) (hrem : s.dma.rem ≠ 0) : s.dmaTurn = s.dmaSend := by
  rcases dmaTurn_cases s with ⟨-, -, ht⟩ | ⟨hnone, -⟩
  · exact ht
  · simp_all

theorem dmaTurn_of_none (hnone : s.dma.active = false ∨ s.dma.rem = 0) : s.dmaTurn = s := by
  rcases dmaTurn_cases s with ⟨hact, hrem, -⟩ | ⟨-, ht⟩
  · simp_all
  · exact ht

theorem consume_of_cons {i : Input} {rest : List Input} (hin : s.inputs = i :: rest) :
    s.consume = { s with rspValid := false, inputs := rest } := by
  rw [State.consume, hin]
  rfl

/-- With no operation in progress a step gives DMA its turn. -/
theorem step_of_dmaStep {rest : List Input} (hb : s.busy = false) (hin : s.inputs = .dmaStep :: rest) :
    step s = .next s.consume.dmaTurn := by
  simp [step, stepIdle, hb, hin]

/-- DMA's record after a byte: before it `done` was 0, since a byte was left, so the last byte alone sets it. -/
theorem State.Inv.dmaSend_dma (h : s.Inv) (hact : s.dma.active = true) (hrem : s.dma.rem ≠ 0) :
    s.dmaSend.dma
      = { s.dma with ptr := s.dma.ptr + 1, rem := s.dma.rem - 1, done := decide (s.dma.rem = 1) } := by
  have hdone : s.dma.done = false := by
    rw [← Bool.not_eq_true, h.doneIff (h.activeIff.2 hact)]
    exact hrem
  have hlast : s.dma.rem - 1 = 0 ↔ s.dma.rem = 1 := sub_eq_zero
  simp only [State.dmaSend, hdone, hlast, Bool.if_true_left, Bool.or_false]

end

/-- Settles O41: by the two outcomes of DMA's turn. -/
theorem dmaTurnSendsOneByte : Obligations.DmaTurnSendsOneByte := by
  intro s rest h hb hin
  rw [step_of_dmaStep hb hin]
  constructor
  · intro hact hrem
    rw [dmaTurn_of_left (s := s.consume) hact hrem]
    refine ⟨_, rfl, ?_, rfl, h.consume.dmaSend_dma hact hrem⟩
    rw [consume_of_cons hin]
    rfl
  · intro hnone
    rw [dmaTurn_of_none (s := s.consume) hnone, consume_of_cons hin]

/-! ### A run of DMA's turns -/

/-- A run goes on from the state that its first step answers. -/
theorem run_succ_of_step {s t : State} (n : Nat) (h : step s = .next t) :
    Host.Core.run Sys2Proof.core (n + 1) s = Host.Core.run Sys2Proof.core n t := by
  have hcore : Sys2Proof.core.step s = .next t := h
  simp only [Host.Core.run, hcore]

/-- While more than one byte is left, the next pointer is the next address: the range ends at 2^32 at the latest
(10_state.md R37 (f), 20_memory.md R63). -/
theorem State.Inv.ptr_succ_toNat {s : State} (h : s.Inv) (hx : s.xfer = .inFlight) (hrem : 1 < s.dma.rem.toNat) :
    (s.dma.ptr + 1).toNat = s.dma.ptr.toNat + 1 := by
  obtain ⟨hle, hptr⟩ := h.progress hx
  have hrange := h.rangeInside hx
  obtain ⟨-, -, -, -, -, hmem⟩ := s.cfg.bounds
  rw [hptr]
  bv_omega

/-- The bytes still to be sent are the one at the pointer and those from the next pointer on. -/
theorem State.Inv.bytesAt_ptr_succ {s : State} (h : s.Inv) (hx : s.xfer = .inFlight) {n : Nat}
    (hn : n + 1 ≤ s.dma.rem.toNat) :
    s.bytesAt s.dma.ptr.toNat (n + 1) = s.byteAt s.dma.ptr.toNat :: s.bytesAt (s.dma.ptr + 1).toNat n := by
  cases n with
  | zero => rfl
  | succ n => rw [State.bytesAt, h.ptr_succ_toNat hx (by omega)]

@[simp] theorem consume_bytesAt (s : State) (a n : Nat) : s.consume.bytesAt a n = s.bytesAt a n :=
  bytesAt_congr a n fun _ _ _ => rfl

@[simp] theorem dmaSend_bytesAt (s : State) (a n : Nat) : s.dmaSend.bytesAt a n = s.bytesAt a n :=
  bytesAt_congr a n fun _ _ _ => rfl

/-- Settles O42: by induction on the number of turns, each of which sends the byte at the pointer and leaves a
transfer in flight with one byte less. -/
theorem dmaTurnsCompleteTransfer : Obligations.DmaTurnsCompleteTransfer := by
  intro n
  induction n with
  | zero =>
    intro s rest h _ hx _ hin
    refine ⟨s, rfl, by simp [State.bytesAt], rfl, rfl, ?_, hx, hin, fun _ => rfl⟩
    rw [h.doneIff hx, ← BitVec.toNat_inj]
    exact eq_comm
  | succ n ih =>
    intro s rest h hb hx hn hin
    have hact : s.consume.dma.active = true := h.activeIff.1 hx
    have hrem : s.consume.dma.rem ≠ 0 := fun h0 : s.dma.rem = 0 => by simp [h0] at hn
    have hstep : step s = .next s.consume.dmaSend := by
      rw [step_of_dmaStep hb hin, dmaTurn_of_left hact hrem]
    have hless : s.consume.dmaSend.dma.rem.toNat = s.dma.rem.toNat - 1 := by
      show (s.dma.rem - 1).toNat = _
      bv_omega
    obtain ⟨t, hrun, htrace, hrx, hleft, hdone, hflight, hrest, hmem⟩ :=
      ih s.consume.dmaSend rest (h.consume.dmaSend hact hrem) hb hx (by omega)
        (by show s.inputs.tail = _; simp [hin, List.replicate_succ])
    rw [dmaSend_bytesAt, consume_bytesAt] at htrace hrx
    rw [h.bytesAt_ptr_succ hx hn]
    refine ⟨t, (run_succ_of_step n hstep).trans hrun, ?_, hrx, by omega, hdone.trans (by omega), hflight, hrest,
      hmem⟩
    rw [htrace]
    exact List.append_assoc s.trace [_] _

end Sys2Proof.Machine
end

/-! ## The receiver: its reset line, the rotation mapping and the pixel write (41_receiver.md) -/

section

namespace Sys2Proof.Machine

open Sys2Proof

/-! ### The lines and the waits (41_receiver.md R159) -/

/-- RX's levels are those of the link: each event moves them as it moves the lines (10_state.md R40). -/
theorem event_lines (p : Params) (r : Rx) (e : Event) :
    (Rx.event p r e).cs = csAfter r.cs e ∧ (Rx.event p r e).dc = dcAfter r.dc e
      ∧ (Rx.event p r e).rst = rstAfter r.rst e := by
  cases e with
  | cs l => exact ⟨rfl, rfl, rfl⟩
  | dc l => exact ⟨rfl, rfl, rfl⟩
  | tx b =>
    have h := byte_sameLines p r b
    exact ⟨h.cs, h.dc, h.rst⟩
  | wait ms =>
    unfold Rx.event Rx.wait
    dsimp only
    split <;> exact ⟨rfl, rfl, rfl⟩
  | rst l =>
    unfold Rx.event Rx.resetLine
    dsimp only
    split
    · rename_i h
      exact ⟨rfl, rfl, h.symm⟩
    · split
      · rename_i hl
        unfold Rx.resetRelease
        dsimp only
        split <;> exact ⟨rfl, rfl, hl.symm⟩
      · rename_i hl
        exact ⟨rfl, rfl, (Bool.eq_false_of_not_eq_true hl).symm⟩

theorem events_lines (p : Params) (r : Rx) (es : List Event) :
    (Rx.events p r es).cs = es.foldl csAfter r.cs ∧ (Rx.events p r es).dc = es.foldl dcAfter r.dc
      ∧ (Rx.events p r es).rst = es.foldl rstAfter r.rst := by
  induction es generalizing r with
  | nil => exact ⟨rfl, rfl, rfl⟩
  | cons e es ih =>
    obtain ⟨hcs, hdc, hrst⟩ := event_lines p r e
    have h := ih (Rx.event p r e)
    rwa [hcs, hdc, hrst] at h

theorem event_rst_same (p : Params) (r : Rx) : Rx.event p r (.rst r.rst) = r := by
  simp [Rx.event, Rx.resetLine]

/-- The reset line's rising edge: V_RSTPULSE after too short a pulse (41_receiver.md R159). -/
theorem event_rst_high (p : Params) {r : Rx} (h : r.rst = false) :
    Rx.event p r (.rst true) = { r with
      rst := true, settleMs := 0,
      viol := { r.viol with rstPulse := r.viol.rstPulse || decide (r.holdMs < rstHoldMin) } } := by
  have hne : true ≠ r.rst := by simp [h]
  rw [Rx.event, Rx.resetLine, if_neg hne, if_pos rfl, Rx.resetRelease]
  by_cases hs : r.holdMs < rstHoldMin <;> simp [hs, Rx.setRstPulse]

theorem event_wait (p : Params) (r : Rx) (ms : Nat) :
    Rx.event p r (.wait ms) = { r with
      holdMs := if r.rst then r.holdMs else r.holdMs + ms,
      settleMs := if r.rst then r.settleMs + ms else r.settleMs } := by
  rw [Rx.event, Rx.wait]
  split <;> rfl

/-- Settles O52: one clause for each edge, level and wait. -/
theorem receiverResetTiming : Obligations.ReceiverResetTiming := by
  intro c r ms
  refine ⟨event_rst_low c.toParams, fun h => ?_, fun h => ?_, event_rst_high c.toParams, event_wait c.toParams r ms⟩
  · exact h ▸ event_rst_same c.toParams r
  · exact h ▸ event_rst_same c.toParams r

/-! ### The rotation mapping (41_receiver.md R156, R157) -/

/-- A position counted from the other end of a side of `n` cells, where the order flag `f` is set. -/
def mirrored (f : Bool) (n i : Nat) : Nat := if f then n - 1 - i else i

theorem mirrored_lt {f : Bool} {n i : Nat} (h : i < n) : mirrored f n i < n := by
  unfold mirrored
  split <;> omega

theorem mirrored_mirrored {f : Bool} {n i : Nat} (h : i < n) : mirrored f n (mirrored f n i) = i := by
  cases f
  · rfl
  · simp only [mirrored, if_true]
    omega

theorem mirrored_cast {o m : Byte} {n i : Nat} (h : i < n) :
    (mirrored (flagSet o m) n i : Int) = if o &&& m ≠ 0 then (n : Int) - 1 - i else i := by
  by_cases hm : o &&& m = 0
  · simp [mirrored, flagSet, hm]
  · simp only [mirrored, flagSet, hm, decide_true, if_true, ne_eq, not_false_eq_true]
    omega

theorem flagSet_eq_false_iff {o m : Byte} : flagSet o m = false ↔ o &&& m = 0 := by simp [flagSet]

theorem flagSet_eq_true_iff {o m : Byte} : flagSet o m = true ↔ o &&& m ≠ 0 := by simp [flagSet]

/-- `Map`: the position's column and row, exchanged where the exchange flag is set, each counted from the end that its
order flag names. -/
theorem panelMap_eq (p : Params) (o : Byte) (x y : Nat) :
    panelMap p o x y = if x < rxW p o ∧ y < rxH p o then
      some (mirrored (flagSet o p.maskCo) p.panelW (if flagSet o p.maskEx then y else x),
        mirrored (flagSet o p.maskRo) p.panelH (if flagSet o p.maskEx then x else y))
    else none := by
  unfold panelMap rxW rxH mirrored
  cases flagSet o p.maskEx
  · rfl
  · simp only [if_true, and_comm]

/-- `Map` leaves the panel exactly outside the effective geometry. -/
theorem panelMap_isSome_iff (p : Params) (o : Byte) (x y : Nat) :
    (panelMap p o x y).isSome = true ↔ x < rxW p o ∧ y < rxH p o := by
  rw [panelMap_eq]
  split <;> simp_all

/-- A cell that `Map` gives lies on the panel. -/
theorem panelMap_inside {p : Params} {o : Byte} {x y pc pr : Nat} (h : panelMap p o x y = some (pc, pr)) :
    pc < p.panelW ∧ pr < p.panelH := by
  rw [panelMap_eq] at h
  split at h
  · rename_i hin
    unfold rxW rxH at hin
    cases h
    cases hex : flagSet o p.maskEx <;> rw [hex] at hin
    · exact ⟨mirrored_lt hin.1, mirrored_lt hin.2⟩
    · exact ⟨mirrored_lt hin.2, mirrored_lt hin.1⟩
  · cases h

/-- The position that `Map` takes to a cell: the mapping undone. -/
def unmapped (p : Params) (o : Byte) (pc pr : Nat) : Nat × Nat :=
  let c := mirrored (flagSet o p.maskCo) p.panelW pc
  let r := mirrored (flagSet o p.maskRo) p.panelH pr
  if flagSet o p.maskEx then (r, c) else (c, r)

theorem panelMap_unmapped {p : Params} {o : Byte} {pc pr : Nat} (hc : pc < p.panelW) (hr : pr < p.panelH) :
    (unmapped p o pc pr).1 < rxW p o ∧ (unmapped p o pc pr).2 < rxH p o
      ∧ panelMap p o (unmapped p o pc pr).1 (unmapped p o pc pr).2 = some (pc, pr) := by
  have hc' := mirrored_lt (f := flagSet o p.maskCo) hc
  have hr' := mirrored_lt (f := flagSet o p.maskRo) hr
  rw [panelMap_eq]
  unfold unmapped rxW rxH
  cases flagSet o p.maskEx <;> simp [hc', hr', mirrored_mirrored hc, mirrored_mirrored hr]

theorem unmapped_of_panelMap {p : Params} {o : Byte} {x y pc pr : Nat} (h : panelMap p o x y = some (pc, pr)) :
    unmapped p o pc pr = (x, y) := by
  rw [panelMap_eq] at h
  split at h
  · rename_i hin
    unfold rxW rxH at hin
    cases h
    unfold unmapped
    cases hex : flagSet o p.maskEx <;> rw [hex] at hin
    · exact Prod.ext (mirrored_mirrored hin.1) (mirrored_mirrored hin.2)
    · exact Prod.ext (mirrored_mirrored hin.1) (mirrored_mirrored hin.2)
  · cases h

/-- Settles O54: `unmapped` is the inverse. -/
theorem rotationMapIsBijection : Obligations.RotationMapIsBijection := by
  intro c o
  refine ⟨fun x y hx hy => ?_, fun pc pr hc hr => ?_, fun x y hout => ?_⟩
  · have hmap := panelMap_eq c.toParams o x y
    rw [if_pos ⟨hx, hy⟩] at hmap
    obtain ⟨hc, hr⟩ := panelMap_inside hmap
    refine ⟨_, _, hc, hr, hmap, fun hex => ?_, fun hex => ?_⟩
    · rw [← flagSet_eq_false_iff] at hex
      simp only [rxW, rxH, hex] at hx hy ⊢
      exact ⟨mirrored_cast hx, mirrored_cast hy⟩
    · rw [← flagSet_eq_true_iff] at hex
      simp only [rxW, rxH, hex] at hx hy ⊢
      exact ⟨mirrored_cast hy, mirrored_cast hx⟩
  · obtain ⟨hx, hy, hmap⟩ := panelMap_unmapped (o := o) hc hr
    refine ⟨_, _, hx, hy, hmap, fun x' y' hmap' => ?_⟩
    rw [unmapped_of_panelMap hmap']
    exact ⟨rfl, rfl⟩
  · rw [panelMap_eq, if_neg (by omega)]

/-! ### The pixel write and the pointer's advance (41_receiver.md R155) -/

/-- The pointer one cell on, row by row through the window. -/
theorem advance_eq (r : Rx) :
    r.advance = { r with
      col := if r.col = r.xe then r.xs else r.col + 1,
      row := if r.col = r.xe then (if r.row = r.ye then r.ys else r.row + 1) else r.row } := by
  unfold Rx.advance
  repeat' split
  all_goals rfl

section

variable {p : Params} {r : Rx}

/-- On the panel a pixel goes to the cell of the pointer, and the pointer advances. -/
theorem pixel_on_panel {pc pr : Nat} (h : panelMap p r.orient r.col.toNat r.row.toNat = some (pc, pr)) (px : Half) :
    Rx.pixel p r px = { r with
      gram := (r.setCell pc pr px).gram, col := r.advance.col, row := r.advance.row } := by
  simp only [Rx.pixel, h, advance_eq, Rx.setCell]

/-- Off the panel a pixel goes nowhere and sets V_WINDOW, and the pointer advances. -/
theorem pixel_off_panel (h : panelMap p r.orient r.col.toNat r.row.toNat = none) (px : Half) :
    Rx.pixel p r px = { r with
      viol := { r.viol with window := true }, col := r.advance.col, row := r.advance.row } := by
  simp only [Rx.pixel, h, advance_eq, Rx.setWindow]

/-- A pixel moves nothing but the panel memory, the flags and the pointer, and the pointer as `Rx.advance` does. -/
theorem pixel_eq (p : Params) (r : Rx) (px : Half) :
    Rx.pixel p r px = { r with
      gram := (Rx.pixel p r px).gram, viol := (Rx.pixel p r px).viol,
      col := r.advance.col, row := r.advance.row } := by
  cases h : panelMap p r.orient r.col.toNat r.row.toNat with
  | none => rw [pixel_off_panel h]
  | some cell => rw [pixel_on_panel h]

/-- A cell on the panel takes the pixel, and no other cell changes (20_memory.md R70). -/
theorem cell_setCell_of_wf (hwf : Gram.wf p r.gram = true) {pc pr : Nat} (hc : pc < p.panelW)
    (hr : pr < p.panelH) (px : Half) (x y : Nat) :
    (r.setCell pc pr px).cell x y = if (x, y) = (pc, pr) then some px else r.cell x y := by
  simp only [Gram.wf, Bool.and_eq_true, decide_eq_true_eq, List.all_eq_true] at hwf
  obtain ⟨hrows, hcols⟩ := hwf
  have hpr : pr < r.gram.length := by omega
  have hpc : pc < r.gram[pr].length := by rw [hcols _ (List.getElem_mem hpr)]; exact hc
  have hsome : (r.gram[pr]?.bind (fun row => row[pc]?)).isSome = true := by simp [hpr, hpc]
  rw [cell_setCell]
  simp only [hsome, and_true, Prod.mk.injEq, and_comm (a := y = pr)]

/-- A pointer inside a valid window stands on the panel (41_receiver.md R158). -/
theorem panelMap_of_pointerInside (h : r.pointerInside p) :
    (panelMap p r.orient r.col.toNat r.row.toNat).isSome = true := by
  obtain ⟨hwin, -, hcol, -, hrow⟩ := h
  simp only [windowValid, decide_eq_true_eq] at hwin
  obtain ⟨-, hxe, -, hye⟩ := hwin
  rw [panelMap_isSome_iff]
  exact ⟨Nat.lt_of_le_of_lt hcol hxe, Nat.lt_of_le_of_lt hrow hye⟩

/-- The pointer stays inside its window. -/
theorem advance_pointerInside (h : r.pointerInside p) : r.advance.pointerInside p := by
  obtain ⟨hwin, hxs, hxe, hys, hye⟩ := h
  have hcols : r.xs ≤ r.xe := BitVec.le_trans hxs hxe
  have hrows : r.ys ≤ r.ye := BitVec.le_trans hys hye
  rw [advance_eq]
  refine ⟨hwin, ?_, ?_, ?_, ?_⟩ <;> dsimp only <;> repeat' split
  all_goals bv_omega

/-- Inside a valid window a pixel keeps the pointer inside and sets no flag. -/
theorem pixel_pointerInside (h : r.pointerInside p) (px : Half) :
    (Rx.pixel p r px).pointerInside p ∧ (Rx.pixel p r px).viol = r.viol := by
  obtain ⟨cell, hmap⟩ := Option.isSome_iff_exists.1 (panelMap_of_pointerInside h)
  have hadv := advance_pointerInside h
  rw [advance_eq] at hadv
  rw [pixel_on_panel hmap, advance_eq]
  exact ⟨hadv, rfl⟩

end

/-- Settles O53: by cases on whether `Map` leaves the panel. -/
theorem pixelWriteAndAdvance : Obligations.PixelWriteAndAdvance := by
  intro c r px hwf t
  have ht : t = { r with gram := t.gram, viol := t.viol, col := r.advance.col, row := r.advance.row } :=
    pixel_eq c.toParams r px
  have hcol : t.col = r.advance.col := by rw [ht]
  have hrow : t.row = r.advance.row := by rw [ht]
  refine ⟨by rw [hcol, hrow]; exact ht, fun pc pr hmap => ?_, fun hmap => ?_, fun h => ?_, fun h => ?_, fun h => ?_,
    fun h => ⟨(pixel_pointerInside h px).1, panelMap_of_pointerInside h⟩⟩
  · obtain ⟨hc, hr⟩ := panelMap_inside hmap
    have hpix : t = _ := pixel_on_panel hmap px
    have hcell : ∀ x y, t.cell x y = (r.setCell pc pr px).cell x y := fun x y => by rw [hpix]; rfl
    refine ⟨by rw [hpix], ?_, fun x y hne => ?_⟩
    · rw [hcell, cell_setCell_of_wf hwf hc hr, if_pos rfl]
    · rw [hcell, cell_setCell_of_wf hwf hc hr, if_neg hne]
  · have hpix : t = _ := pixel_off_panel hmap px
    exact ⟨by rw [hpix], by rw [hpix]⟩
  · simp [hcol, hrow, advance_eq, h]
  · simp [hcol, hrow, advance_eq, h.1, h.2]
  · simp [hcol, hrow, advance_eq, h.1, h.2]

end Sys2Proof.Machine
end

/-! ## Wire commands in the receiver (30_encoding.md R101, 41_receiver.md R142 to R154) -/

section

namespace Sys2Proof

/-- The five command bytes of a well-formed parameter set, pair by pair (00_scope.md R11 (a)). -/
theorem Config.commands_ne (c : Config) :
    c.opColrange ≠ c.opRowrange ∧ c.opColrange ≠ c.opMemwrite ∧ c.opColrange ≠ c.opOrient
      ∧ c.opColrange ≠ c.opDispon ∧ c.opRowrange ≠ c.opMemwrite ∧ c.opRowrange ≠ c.opOrient
      ∧ c.opRowrange ≠ c.opDispon ∧ c.opMemwrite ≠ c.opOrient ∧ c.opMemwrite ≠ c.opDispon
      ∧ c.opOrient ≠ c.opDispon := by
  simpa [Params.namedCommands, and_assoc] using commands_differ c

end Sys2Proof

namespace Sys2Proof.Machine

open Sys2Proof

/-! ### Bytes of a range (41_receiver.md R147, R148) -/

theorem setHi8_eq (v : Half) (b : Byte) : setHi8 v b = b ++ lo8 v := rfl

theorem setLo8_eq (v : Half) (b : Byte) : setLo8 v b = hi8 v ++ b := rfl

@[simp] theorem hi8_append (a b : Byte) : hi8 (a ++ b) = a := BitVec.extractLsb'_append_eq_left

@[simp] theorem lo8_append (a b : Byte) : lo8 (a ++ b) = b := BitVec.extractLsb'_append_eq_right

@[simp] theorem hi8_append_lo8 (v : Half) : hi8 v ++ lo8 v = v := delay_bytes v

/-- The first and last coordinate of a range after its parameter number `i` (41_receiver.md R147, R148). -/
def rangeByte (i : Nat) (b : Byte) (v : Half × Half) : Half × Half :=
  if i = 0 then (setHi8 v.1 b, v.2)
  else if i = 1 then (setLo8 v.1 b, v.2)
  else if i = 2 then (v.1, setHi8 v.2 b)
  else if i = 3 then (v.1, setLo8 v.2 b)
  else v

/-- The same after the parameters from number `i` on. -/
def rangeAfter : Nat → List Byte → Half × Half → Half × Half
  | _, [], v => v
  | i, b :: bs, v => rangeAfter (i + 1) bs (rangeByte i b v)

theorem rangeAfter_of_four_le {i : Nat} (h : 4 ≤ i) (bs : List Byte) (v : Half × Half) : rangeAfter i bs v = v := by
  induction bs generalizing i with
  | nil => rfl
  | cons b bs ih =>
    have hv : rangeByte i b v = v := by
      unfold rangeByte
      rw [if_neg (by omega), if_neg (by omega), if_neg (by omega), if_neg (by omega)]
    rw [rangeAfter, hv, ih (by omega)]

/-- A range command's parameters: the first four are its bounds, those not sent leave their half (R147, R148). -/
theorem rangeAfter_zero (bs : List Byte) (v : Half × Half) :
    rangeAfter 0 bs v = (bs[0]?.getD (hi8 v.1) ++ bs[1]?.getD (lo8 v.1),
      bs[2]?.getD (hi8 v.2) ++ bs[3]?.getD (lo8 v.2)) := by
  match bs with
  | [] => simp [rangeAfter]
  | [a] => simp [rangeAfter, rangeByte, setHi8_eq]
  | [a, b] => simp [rangeAfter, rangeByte, setHi8_eq, setLo8_eq]
  | [a, b, c] => simp [rangeAfter, rangeByte, setHi8_eq, setLo8_eq]
  | a :: b :: c :: d :: rest =>
    simp [rangeAfter, rangeByte, rangeAfter_of_four_le, setHi8_eq, setLo8_eq]

/-! ### V_SETTLE (41_receiver.md R144, R159) -/

theorem checkSettle_eq (r : Rx) :
    r.checkSettle = { r with
      viol := { r.viol with settle := r.viol.settle || decide (r.settleMs < rstSettleMin) } } := by
  unfold Rx.checkSettle
  by_cases h : r.settleMs < rstSettleMin <;> simp [h, Rx.setSettle]

/-- The check finds nothing to mark: the floor is passed, or V_SETTLE is set already. -/
theorem checkSettle_eq_self {r : Rx} (h : r.settleMs < rstSettleMin → r.viol.settle = true) : r.checkSettle = r := by
  unfold Rx.checkSettle Rx.setSettle
  split
  · rename_i hs
    rw [← h hs]
  · rfl

theorem pixel_settle (p : Params) (r : Rx) (px : Half) : (Rx.pixel p r px).viol.settle = r.viol.settle := by
  cases h : panelMap p r.orient r.col.toNat r.row.toNat with
  | none => rw [pixel_off_panel h]
  | some cell => rw [pixel_on_panel h]

theorem dataByte_settle (p : Params) (r : Rx) (b : Byte) : (Rx.dataByte p r b).viol.settle = r.viol.settle := by
  unfold Rx.dataByte
  split
  · rfl
  split
  · unfold Rx.pixelByte
    split
    · rfl
    · exact pixel_settle p _ _
  · unfold Rx.paramByte Rx.colParam Rx.rowParam Rx.orientParam
    dsimp only
    repeat' split
    all_goals rfl

theorem commandByte_settle (p : Params) (r : Rx) (b : Byte) :
    (Rx.commandByte p r b).viol.settle = r.viol.settle := by
  unfold Rx.commandByte Rx.latchCommand Rx.beginWrite Rx.checkWindow
  dsimp only
  repeat' split
  all_goals rfl

/-! ### Whole brackets and whole commands (30_encoding.md R100, R105) -/

/-- RX with other levels of chip-select and of the command/data line. -/
def Rx.atLevels (r : Rx) (cs dc : Bool) : Rx := { r with cs := cs, dc := dc }

@[simp] theorem atLevels_atLevels (r : Rx) (cs dc cs' dc' : Bool) :
    (r.atLevels cs dc).atLevels cs' dc' = r.atLevels cs' dc' := rfl

theorem atLevels_of_dc {r : Rx} {dc : Bool} (hdc : r.dc = dc) (cs : Bool) : { r with cs := cs } = r.atLevels cs dc := by
  rw [← hdc]
  rfl

/-- RX on a command bracket outside reset. -/
theorem rx_command_bracket (p : Params) {r : Rx} (hrst : r.rst = true) (b : Byte) :
    Rx.events p r (btCmd b)
      = (Rx.commandByte p (r.checkSettle.atLevels false false) b).atLevels true false := by
  have hlevels : { r with cs := false, dc := false }.checkSettle = r.checkSettle.atLevels false false := by
    simp only [checkSettle_eq, Rx.atLevels]
  rw [rx_btCmd p r b hrst, hlevels]
  exact atLevels_of_dc (commandByte_sameLines p _ b).dc true

/-- RX on a data bracket. -/
theorem rx_data_bracket (p : Params) (r : Rx) (bs : List Byte) :
    Rx.events p r (btData bs) = (bs.foldl (Rx.byte p) (r.atLevels false true)).atLevels true true := by
  rw [rx_btData]
  exact atLevels_of_dc (bytes_sameLines p _ bs).dc true

/-- The bytes of a data bracket are data steps, once V_SETTLE is marked where it is due. -/
theorem foldl_byte_of_data {p : Params} {r : Rx} (hrst : r.rst = true)
    (hs : r.settleMs < rstSettleMin → r.viol.settle = true) (bs : List Byte) :
    bs.foldl (Rx.byte p) (r.atLevels false true) = bs.foldl (Rx.dataByte p) (r.atLevels false true) := by
  suffices h : ∀ t : Rx, t.cs = false → t.dc = true → t.rst = true →
      (t.settleMs < rstSettleMin → t.viol.settle = true) →
      bs.foldl (Rx.byte p) t = bs.foldl (Rx.dataByte p) t from h _ rfl rfl hrst hs
  induction bs with
  | nil => exact fun _ _ _ _ _ => rfl
  | cons b bs ih =>
    intro t hcs hdc hrst hs
    have h := dataByte_sameLines p t b
    rw [List.foldl_cons, byte_of_data p t b hcs hdc hrst, checkSettle_eq_self hs]
    exact ih _ (h.cs.trans hcs) (h.dc.trans hdc) (h.rst.trans hrst) (by rwa [h.settleMs, dataByte_settle])

/-- RX on a wire command outside reset: its command step, then a data step for each byte. -/
theorem rx_wireEvents {p : Params} {r : Rx} (hrst : r.rst = true) (b : Byte) (data : List Byte) :
    Rx.events p r (wireEvents b data) = (data.foldl (Rx.dataByte p)
      ((Rx.commandByte p (r.checkSettle.atLevels false false) b).atLevels false (!data.isEmpty))).atLevels
        true (!data.isEmpty) := by
  have hcheck := checkSettle_sameLines r
  have hbyte := commandByte_sameLines p (r.checkSettle.atLevels false false) b
  have hsettle := commandByte_settle p (r.checkSettle.atLevels false false) b
  rw [wireEvents, Rx.events_append, rx_command_bracket p hrst]
  generalize Rx.commandByte p (r.checkSettle.atLevels false false) b = u at hbyte hsettle
  cases data with
  | nil => rfl
  | cons d data =>
    have hmark : u.settleMs < rstSettleMin → u.viol.settle = true := by
      intro hlow
      have hlow : r.settleMs < rstSettleMin := by rwa [hbyte.settleMs.trans hcheck.settleMs] at hlow
      exact hsettle.trans (by simp [checkSettle_eq, Rx.atLevels, hlow])
    rw [if_neg (List.cons_ne_nil d data), rx_data_bracket, atLevels_atLevels,
      foldl_byte_of_data (hbyte.rst.trans (hcheck.rst.trans hrst)) hmark]
    rfl

/-- RX on a wire command in reset: it sees the levels only (41_receiver.md R143). -/
theorem rx_wireEvents_in_reset {p : Params} {r : Rx} (hrst : r.rst = false) (b : Byte) (data : List Byte) :
    Rx.events p r (wireEvents b data) = r.atLevels true (!data.isEmpty) := by
  have hcmd : Rx.events p r (btCmd b) = r.atLevels true false := by
    simp [btCmd, Rx.event, Rx.byte, hrst, Rx.atLevels]
  rw [wireEvents, Rx.events_append, hcmd]
  cases data with
  | nil => rfl
  | cons d data =>
    rw [if_neg (List.cons_ne_nil d data), rx_data_bracket, bytes_in_reset p _ _ (by exact hrst)]
    rfl

/-- The flags after a command step: V_HALF for a half pixel dropped, V_SETTLE before the settle floor (R144, R146). -/
def Rx.violAtCommand (r : Rx) : Viol :=
  { r.viol with
    half := r.viol.half || r.half.isSome, settle := r.viol.settle || decide (r.settleMs < rstSettleMin) }

/-- RX after the command step of a command that has no other effect (R146). -/
def Rx.commanded (r : Rx) (b : Byte) : Rx :=
  { r with cmd := some b, pidx := 0, memwr := false, half := none, viol := r.violAtCommand }

theorem latchCommand_eq (r : Rx) (b : Byte) :
    (r.checkSettle.atLevels false false).latchCommand b = (r.commanded b).atLevels false false := by
  rw [checkSettle_eq, Rx.latchCommand, Rx.commanded, Rx.violAtCommand]
  cases r.half <;> simp [Rx.atLevels, Rx.setHalf]

/-! ### The command step, command by command (41_receiver.md R146) -/

section

variable {c : Config} {r : Rx}

theorem commandByte_param {b : Byte} (h : b = c.opColrange ∨ b = c.opRowrange ∨ b = c.opOrient) :
    Rx.commandByte c.toParams (r.checkSettle.atLevels false false) b = (r.commanded b).atLevels false false := by
  obtain ⟨-, hcm, -, hcd, hrm, -, hrd, hmo, -, hod⟩ := c.commands_ne
  rw [Rx.commandByte, latchCommand_eq]
  rcases h with rfl | rfl | rfl
  · simp [hcm, hcd]
  · simp [hrm, hrd]
  · simp [hmo.symm, hod]

theorem commandByte_displayOn :
    Rx.commandByte c.toParams (r.checkSettle.atLevels false false) c.opDispon
      = { (r.commanded c.opDispon).atLevels false false with dispOn := true } := by
  obtain ⟨-, -, -, -, -, -, -, -, hmd, -⟩ := c.commands_ne
  rw [Rx.commandByte, latchCommand_eq]
  simp [hmd.symm]

theorem commandByte_memoryWrite :
    Rx.commandByte c.toParams (r.checkSettle.atLevels false false) c.opMemwrite
      = { (r.commanded c.opMemwrite).atLevels false false with
          memwr := true, col := r.xs, row := r.ys,
          viol := { r.violAtCommand with window := r.viol.window || !windowValid c.toParams r } } := by
  rw [Rx.commandByte, latchCommand_eq]
  dsimp only
  rw [if_pos rfl, Rx.beginWrite, Rx.checkWindow]
  split
  · rename_i h
    have hvalid : windowValid c.toParams r = true := h
    simp [hvalid, Rx.atLevels, Rx.commanded, Rx.violAtCommand]
  · rename_i h
    have hinvalid : windowValid c.toParams r = false := Bool.eq_false_of_not_eq_true h
    simp [hinvalid, Rx.atLevels, Rx.commanded, Rx.violAtCommand, Rx.setWindow]

theorem commandByte_vendor {b : Byte} (h : b ∉ c.namedCommands) :
    Rx.commandByte c.toParams (r.checkSettle.atLevels false false) b
      = { (r.commanded b).atLevels false false with vendorLog := r.vendorLog ++ [[b]] } := by
  simp only [Params.namedCommands, List.mem_cons, List.not_mem_nil, or_false, not_or] at h
  obtain ⟨hcol, hrow, hmem, horient, hon⟩ := h
  rw [Rx.commandByte, latchCommand_eq]
  simp [hcol, hrow, hmem, horient, hon, Rx.atLevels, Rx.commanded]

/-! ### The data step, command by command (41_receiver.md R153) -/

theorem dataByte_of_param {b : Byte} (hcmd : r.cmd = some b) (hmem : r.memwr = false) (d : Byte) :
    Rx.dataByte c.toParams r d = Rx.paramByte c.toParams r b d := by
  simp [Rx.dataByte, hcmd, hmem]

/-- column-range's data bytes are its parameters (R147). -/
theorem foldl_dataByte_columns (hcmd : r.cmd = some c.opColrange) (hmem : r.memwr = false) (data : List Byte) :
    data.foldl (Rx.dataByte c.toParams) r = { r with
      pidx := r.pidx + data.length,
      xs := (rangeAfter r.pidx data (r.xs, r.xe)).1, xe := (rangeAfter r.pidx data (r.xs, r.xe)).2 } := by
  induction data generalizing r with
  | nil => rfl
  | cons b data ih =>
    have hstep : Rx.dataByte c.toParams r b = { r with
        pidx := r.pidx + 1,
        xs := (rangeByte r.pidx b (r.xs, r.xe)).1, xe := (rangeByte r.pidx b (r.xs, r.xe)).2 } := by
      rw [dataByte_of_param hcmd hmem, Rx.paramByte, if_pos rfl, Rx.colParam, rangeByte]
      repeat' split
      all_goals rfl
    rw [List.foldl_cons, hstep, ih (by exact hcmd) (by exact hmem), rangeAfter, List.length_cons,
      Nat.add_right_comm, Nat.add_assoc]

/-- row-range's data bytes are its parameters (R148). -/
theorem foldl_dataByte_rows (hcmd : r.cmd = some c.opRowrange) (hmem : r.memwr = false) (data : List Byte) :
    data.foldl (Rx.dataByte c.toParams) r = { r with
      pidx := r.pidx + data.length,
      ys := (rangeAfter r.pidx data (r.ys, r.ye)).1, ye := (rangeAfter r.pidx data (r.ys, r.ye)).2 } := by
  obtain ⟨hcr, -⟩ := c.commands_ne
  induction data generalizing r with
  | nil => rfl
  | cons b data ih =>
    have hstep : Rx.dataByte c.toParams r b = { r with
        pidx := r.pidx + 1,
        ys := (rangeByte r.pidx b (r.ys, r.ye)).1, ye := (rangeByte r.pidx b (r.ys, r.ye)).2 } := by
      rw [dataByte_of_param hcmd hmem, Rx.paramByte, if_neg hcr.symm, if_pos rfl, Rx.rowParam, rangeByte]
      repeat' split
      all_goals rfl
    rw [List.foldl_cons, hstep, ih (by exact hcmd) (by exact hmem), rangeAfter, List.length_cons,
      Nat.add_right_comm, Nat.add_assoc]

/-- orientation's first data byte is the orientation byte, further ones are counted (R149). -/
theorem foldl_dataByte_orientation (hcmd : r.cmd = some c.opOrient) (hmem : r.memwr = false) (data : List Byte) :
    data.foldl (Rx.dataByte c.toParams) r = { r with
      pidx := r.pidx + data.length, orient := if r.pidx = 0 then data[0]?.getD r.orient else r.orient } := by
  obtain ⟨-, -, hco, -, -, hro, -⟩ := c.commands_ne
  induction data generalizing r with
  | nil => simp
  | cons b data ih =>
    have hstep : Rx.dataByte c.toParams r b = { r with
        pidx := r.pidx + 1, orient := if r.pidx = 0 then b else r.orient } := by
      rw [dataByte_of_param hcmd hmem, Rx.paramByte, if_neg hco.symm, if_neg hro.symm, if_pos rfl, Rx.orientParam]
      split <;> rfl
    rw [List.foldl_cons, hstep, ih (by exact hcmd) (by exact hmem), List.length_cons, Nat.add_right_comm, Nat.add_assoc]
    rfl

/-- display-on's data bytes are counted (R153). -/
theorem foldl_dataByte_displayOn (hcmd : r.cmd = some c.opDispon) (hmem : r.memwr = false) (data : List Byte) :
    data.foldl (Rx.dataByte c.toParams) r = { r with pidx := r.pidx + data.length } := by
  obtain ⟨-, -, -, hcd, -, -, hrd, -, -, hod⟩ := c.commands_ne
  induction data generalizing r with
  | nil => rfl
  | cons b data ih =>
    have hstep : Rx.dataByte c.toParams r b = { r with pidx := r.pidx + 1 } := by
      rw [dataByte_of_param hcmd hmem, Rx.paramByte, if_neg hcd.symm, if_neg hrd.symm, if_neg hod.symm, if_pos rfl]
    rw [List.foldl_cons, hstep, ih (by exact hcmd) (by exact hmem), List.length_cons, Nat.add_right_comm, Nat.add_assoc]

theorem appendToLast_append (log : List (List Byte)) (record : List Byte) (b : Byte) :
    appendToLast (log ++ [record]) b = log ++ [record ++ [b]] := by
  induction log with
  | nil => rfl
  | cons first log ih =>
    cases log with
    | nil => rfl
    | cons second log => exact congrArg (first :: ·) ih

/-- A vendor command's data bytes go to its record (R153). -/
theorem foldl_dataByte_vendor {b : Byte} (h : b ∉ c.namedCommands) (hcmd : r.cmd = some b) (hmem : r.memwr = false)
    {log : List (List Byte)} {record : List Byte} (hlog : r.vendorLog = log ++ [record]) (data : List Byte) :
    data.foldl (Rx.dataByte c.toParams) r = { r with
      pidx := r.pidx + data.length, vendorLog := log ++ [record ++ data] } := by
  have hnamed := h
  simp only [Params.namedCommands, List.mem_cons, List.not_mem_nil, or_false, not_or] at hnamed
  obtain ⟨hcol, hrow, -, horient, hon⟩ := hnamed
  induction data generalizing r record with
  | nil => simp [← hlog]
  | cons d data ih =>
    have hstep : Rx.dataByte c.toParams r d = { r with
        pidx := r.pidx + 1, vendorLog := log ++ [record ++ [d]] } := by
      rw [dataByte_of_param hcmd hmem, Rx.paramByte, if_neg hcol, if_neg hrow, if_neg horient, if_neg hon, hlog,
        appendToLast_append]
    rw [List.foldl_cons, hstep, ih (by exact hcmd) (by exact hmem) (by rfl), List.length_cons,
      Nat.add_right_comm, Nat.add_assoc, List.append_assoc]
    rfl

/-! ### The pixel stream (41_receiver.md R154) -/

/-- The pixel step neither reads nor writes the levels and the half pixel. -/
theorem pixel_with (p : Params) (r : Rx) (cs dc : Bool) (half : Option Byte) (px : Half) :
    Rx.pixel p { r.atLevels cs dc with half := half } px
      = { (Rx.pixel p r px).atLevels cs dc with half := half } := by
  cases h : panelMap p r.orient r.col.toNat r.row.toNat with
  | none =>
    rw [pixel_off_panel h, pixel_off_panel (by exact h)]
    simp only [advance_eq, Rx.atLevels]
  | some cell =>
    rw [pixel_on_panel h, pixel_on_panel (by exact h)]
    simp only [advance_eq, Rx.setCell, Rx.atLevels]

theorem pixels_with (p : Params) (r : Rx) (cs dc : Bool) (half : Option Byte) (pxs : List Half) :
    pxs.foldl (Rx.pixel p) { r.atLevels cs dc with half := half }
      = { (pxs.foldl (Rx.pixel p) r).atLevels cs dc with half := half } := by
  induction pxs generalizing r with
  | nil => rfl
  | cons px pxs ih => rw [List.foldl_cons, pixel_with, ih]; rfl

theorem pixel_fields (p : Params) (r : Rx) (px : Half) :
    (Rx.pixel p r px).cmd = r.cmd ∧ (Rx.pixel p r px).memwr = r.memwr ∧ (Rx.pixel p r px).half = r.half := by
  rw [pixel_eq]
  exact ⟨rfl, rfl, rfl⟩

/-- In memory-write mode a data step is pixel assembly. -/
theorem dataByte_of_memwr {p : Params} (hcmd : r.cmd.isSome = true) (hmem : r.memwr = true) (b : Byte) :
    Rx.dataByte p r b = Rx.pixelByte p r b := by
  obtain ⟨cmd, hcmd⟩ := Option.isSome_iff_exists.1 hcmd
  simp [Rx.dataByte, hcmd, hmem]

/-- The byte of a data stream that is left as half a pixel: its last, where their number is odd. -/
def halfLeft (data : List Byte) : Option Byte := if data.length % 2 = 1 then data.getLast? else none

theorem halfLeft_pair (hi lo : Byte) (data : List Byte) : halfLeft (hi :: lo :: data) = halfLeft data := by
  unfold halfLeft
  rw [show (hi :: lo :: data).length % 2 = data.length % 2 by simp only [List.length_cons]; omega]
  cases data <;> simp

/-- In memory-write mode, with no half pixel pending, each two data bytes are one pixel step, and an odd last byte is
left pending. -/
theorem foldl_dataByte_pixels {p : Params} (hcmd : r.cmd.isSome = true) (hmem : r.memwr = true) (hhalf : r.half = none)
    (data : List Byte) :
    data.foldl (Rx.dataByte p) r = { (wholePixels data).foldl (Rx.pixel p) r with
      half := halfLeft data } := by
  induction data using wholePixels.induct generalizing r with
  | case1 hi lo data ih =>
    have hfirst : Rx.dataByte p r hi = { r with half := some hi } := by
      rw [dataByte_of_memwr hcmd hmem, Rx.pixelByte, hhalf]
    have hsecond : Rx.dataByte p { r with half := some hi } lo = Rx.pixel p r (pixelOf hi lo) := by
      rw [dataByte_of_memwr (by exact hcmd) (by exact hmem), Rx.pixelByte]
      show Rx.pixel p { r with half := none } _ = _
      rw [← hhalf]
    obtain ⟨hcmd', hmem', hhalf'⟩ := pixel_fields p r (pixelOf hi lo)
    rw [List.foldl_cons, List.foldl_cons, hfirst, hsecond,
      ih (hcmd'.symm ▸ hcmd) (hmem'.trans hmem) (hhalf'.trans hhalf)]
    rw [halfLeft_pair]
    rfl
  | case2 data hshort =>
    match data, hshort with
    | [], _ => simp [wholePixels, halfLeft, ← hhalf]
    | [b], _ => simp [wholePixels, halfLeft, dataByte_of_memwr hcmd hmem, Rx.pixelByte, hhalf]
    | hi :: lo :: data, h => exact absurd rfl (h hi lo data)

/-! ### Each wire command outside reset -/

/-- RX after column-range (R147). -/
theorem rx_columnRange (hrst : r.rst = true) (data : List Byte) :
    Rx.events c.toParams r (wireEvents c.opColrange data)
      = { (r.commanded c.opColrange).atLevels true (!data.isEmpty) with
          pidx := data.length,
          xs := data[0]?.getD (hi8 r.xs) ++ data[1]?.getD (lo8 r.xs),
          xe := data[2]?.getD (hi8 r.xe) ++ data[3]?.getD (lo8 r.xe) } := by
  have hrange := rangeAfter_zero data (r.xs, r.xe)
  rw [rx_wireEvents hrst, commandByte_param (.inl rfl), atLevels_atLevels, foldl_dataByte_columns rfl rfl]
  simp [Rx.commanded, Rx.atLevels, hrange]

/-- RX after row-range (R148). -/
theorem rx_rowRange (hrst : r.rst = true) (data : List Byte) :
    Rx.events c.toParams r (wireEvents c.opRowrange data)
      = { (r.commanded c.opRowrange).atLevels true (!data.isEmpty) with
          pidx := data.length,
          ys := data[0]?.getD (hi8 r.ys) ++ data[1]?.getD (lo8 r.ys),
          ye := data[2]?.getD (hi8 r.ye) ++ data[3]?.getD (lo8 r.ye) } := by
  have hrange := rangeAfter_zero data (r.ys, r.ye)
  rw [rx_wireEvents hrst, commandByte_param (.inr (.inl rfl)), atLevels_atLevels, foldl_dataByte_rows rfl rfl]
  simp [Rx.commanded, Rx.atLevels, hrange]

/-- RX after orientation (R149). -/
theorem rx_orientation (hrst : r.rst = true) (data : List Byte) :
    Rx.events c.toParams r (wireEvents c.opOrient data)
      = { (r.commanded c.opOrient).atLevels true (!data.isEmpty) with
          pidx := data.length, orient := data[0]?.getD r.orient } := by
  rw [rx_wireEvents hrst, commandByte_param (.inr (.inr rfl)), atLevels_atLevels, foldl_dataByte_orientation rfl rfl]
  simp [Rx.commanded, Rx.atLevels]

/-- RX after display-on (R150). -/
theorem rx_displayOn (hrst : r.rst = true) (data : List Byte) :
    Rx.events c.toParams r (wireEvents c.opDispon data)
      = { (r.commanded c.opDispon).atLevels true (!data.isEmpty) with pidx := data.length, dispOn := true } := by
  rw [rx_wireEvents hrst, commandByte_displayOn, foldl_dataByte_displayOn rfl rfl]
  simp [Rx.commanded, Rx.atLevels]

/-- RX after a vendor command (R152). -/
theorem rx_vendor (hrst : r.rst = true) {b : Byte} (h : b ∉ c.namedCommands) (data : List Byte) :
    Rx.events c.toParams r (wireEvents b data)
      = { (r.commanded b).atLevels true (!data.isEmpty) with
          pidx := data.length, vendorLog := r.vendorLog ++ [b :: data] } := by
  rw [rx_wireEvents hrst, commandByte_vendor h,
    foldl_dataByte_vendor h rfl rfl (log := r.vendorLog) (record := [b]) rfl]
  simp [Rx.commanded, Rx.atLevels]

/-- RX in memory-write mode, its pointer at the window's first cell (R151). -/
def Rx.begun (p : Params) (r : Rx) (b : Byte) : Rx :=
  { r.commanded b with
    memwr := true, col := r.xs, row := r.ys,
    viol := { r.violAtCommand with window := r.viol.window || !windowValid p r } }

/-- RX after begin memory write and a pixel stream (R151, R154). -/
theorem rx_memoryWrite (hrst : r.rst = true) (data : List Byte) :
    Rx.events c.toParams r (wireEvents c.opMemwrite data)
      = { ((wholePixels data).foldl (Rx.pixel c.toParams) (r.begun c.toParams c.opMemwrite)).atLevels
            true (!data.isEmpty) with
          half := halfLeft data } := by
  have hlevels : ∀ dc, (r.begun c.toParams c.opMemwrite).atLevels false dc
      = { (r.begun c.toParams c.opMemwrite).atLevels false dc with half := none } := fun _ => rfl
  rw [rx_wireEvents hrst, commandByte_memoryWrite]
  show ((data.foldl (Rx.dataByte c.toParams) ((r.begun c.toParams c.opMemwrite).atLevels false _)).atLevels
    true _) = _
  rw [foldl_dataByte_pixels rfl rfl rfl, hlevels, pixels_with]
  rfl

end

/-- Settles O55: the command step, then the parameters one by one. -/
theorem columnRangeSetsColumns : Obligations.ColumnRangeSetsColumns := fun s data hrst => by
  show Host.Outcome.next (s.receive (wireEvents s.cfg.opColrange data)) = _
  rw [State.receive, rx_columnRange hrst]
  rfl

/-- Settles O56: as O55, for the row bounds. -/
theorem rowRangeSetsRows : Obligations.RowRangeSetsRows := fun s data hrst => by
  show Host.Outcome.next (s.receive (wireEvents s.cfg.opRowrange data)) = _
  rw [State.receive, rx_rowRange hrst]
  rfl

/-- Settles O57: one command for each clause. -/
theorem orientationAndDisplayOn : Obligations.OrientationAndDisplayOn := fun s data hrst => by
  constructor
  · show Host.Outcome.next (s.receive (wireEvents s.cfg.opOrient data)) = _
    rw [State.receive, rx_orientation hrst]
    rfl
  · show Host.Outcome.next (s.receive (wireEvents s.cfg.opDispon data)) = _
    rw [State.receive, rx_displayOn hrst]
    rfl

/-- Settles O58: the command step opens the record, and each data step extends it. -/
theorem vendorCommandIsLogged : Obligations.VendorCommandIsLogged := fun s cmd data hrst hcmd => by
  show Host.Outcome.next (s.receive (wireEvents cmd data)) = _
  rw [State.receive, rx_vendor hrst hcmd]
  rfl

/-- Settles O59: the pixels are the same whatever the levels and the half pixel they are taken at. -/
theorem beginMemoryWriteStartsStream : Obligations.BeginMemoryWriteStartsStream := fun s data hrst => by
  have hexec : ∀ bs, exec (.beginMemoryWrite bs) s
      = .next { s with rx := Rx.events s.cfg.toParams s.rx (wireEvents s.cfg.opMemwrite bs) } := fun _ => rfl
  have hpixels := pixels_with s.cfg.toParams (s.rx.begun s.cfg.toParams s.cfg.opMemwrite) true false none
    (wholePixels data)
  constructor
  · rw [hexec, rx_memoryWrite hrst]
    rfl
  · rw [hexec, rx_memoryWrite hrst]
    refine congrArg (fun rx => Host.Outcome.next { s with rx := rx }) (Eq.trans ?_
      (congrArg (fun t : Rx => { t with dc := !data.isEmpty, half := halfLeft data }) hpixels.symm))
    rfl

/-- A wire command is one command byte with its data bytes, which RX takes (30_encoding.md R105). -/
theorem exec_of_wire {i : Instr} (h : hostOperation i = false) (s : State) :
    ∃ b data, exec i s = .next (s.receive (wireEvents b data)) := by
  cases i with
  | columnRange data => exact ⟨_, data, rfl⟩
  | rowRange data => exact ⟨_, data, rfl⟩
  | beginMemoryWrite data => exact ⟨_, data, rfl⟩
  | orientation data => exact ⟨_, data, rfl⟩
  | displayOn data => exact ⟨_, data, rfl⟩
  | vendor b data => exact ⟨b, data, rfl⟩
  | _ => cases h

/-- Settles O60: both gates stand before everything else in RX's byte step. -/
theorem gatedBytesDoNothing : Obligations.GatedBytesDoNothing := by
  refine ⟨fun c r b hgate => ?_, fun s i hi hrst => ?_⟩
  · rcases hgate with hcs | hrst
    · simp [Rx.event, Rx.byte, hcs]
    · exact bytes_in_reset c.toParams r [b] hrst
  · obtain ⟨b, data, hexec⟩ := exec_of_wire hi s
    rw [State.receive, rx_wireEvents_in_reset hrst] at hexec
    exact ⟨_, hexec, rfl⟩

end Sys2Proof.Machine
end

/-! ## The receiver and the ENGINE (41_receiver.md R140) -/

section

namespace Sys2Proof.Machine

open Sys2Proof

/-! ### RX follows the trace (20_memory.md R76) -/

/-- From `s` to `t` the events `es` went out: the trace grew by them, RX took them, the lines moved by them. -/
structure Emitted (s t : State) (es : List Event) : Prop where
  trace : t.trace = s.trace ++ es
  rx : t.rx = Rx.events s.cfg.toParams s.rx es
  cs : t.cs = es.foldl csAfter s.cs
  dc : t.dc = es.foldl dcAfter s.dc
  rst : t.rst = es.foldl rstAfter s.rst

/-- Where the trace, RX and the lines are as before, no event went out. -/
theorem Emitted.none {s t : State} (htrace : t.trace = s.trace) (hrx : t.rx = s.rx) (hcs : t.cs = s.cs)
    (hdc : t.dc = s.dc) (hrst : t.rst = s.rst) : Emitted s t [] :=
  ⟨by rw [htrace, List.append_nil], hrx, hcs, hdc, hrst⟩

/-- A host operation reaches RX through the events it adds to the trace. -/
theorem Effect.emitted {s t : State} {i : Instr} (h : Effect s i t) (hi : hostOperation i = true) :
    ∃ es, Emitted s t es := by
  cases h with
  | answer _ _ _ => exact ⟨[], .none rfl rfl rfl rfl rfl⟩
  | drop _ => exact ⟨[], .none rfl rfl rfl rfl rfl⟩
  | swap => exact ⟨[], .none rfl rfl rfl rfl rfl⟩
  | endNoTransfer _ _ => exact ⟨[], .none rfl rfl rfl rfl rfl⟩
  | draw _ _ hu _ => cases hu <;> exact ⟨[], by constructor <;> simp [State.pixStores]⟩
  | @send _ u es _ _ hu _ => cases hu <;> exact ⟨es, rfl, rfl, rfl, rfl, rfl⟩
  | @clear es _ _ => exact ⟨es, rfl, rfl, rfl, rfl, rfl⟩
  | bringUp _ _ => exact ⟨initEvents s.cfg, rfl, rfl, rfl, rfl, rfl⟩
  | @rotate rot _ =>
    exact ⟨orientCommand s.cfg.toParams (orientByte s.cfg.toParams rot), rfl, rfl, rfl, rfl, rfl⟩
  | startTransfer _ _ _ =>
    exact ⟨s.screenWindow ++ [.cs false, .dc true], by constructor <;> simp [State.transferStarted]⟩
  | endTransfer _ _ _ => exact ⟨[.cs true], rfl, rfl, rfl, rfl, rfl⟩
  | receive _ hw => rw [hi] at hw; cases hw

/-- Settles O45: by cases on what the instruction can do. -/
theorem receiverFollowsTrace : Obligations.ReceiverFollowsTrace := by
  intro s t i hexec
  have heff := exec_effect hexec
  refine ⟨fun hi => ?_, fun hi => ?_⟩
  · obtain ⟨es, htrace, hrx, hcs, hdc, hrst⟩ := heff.emitted hi
    exact ⟨es, htrace, hrx, hcs, hdc, hrst⟩
  · obtain ⟨es, rfl⟩ := heff.of_wire hi
    rfl

/-! ### Nothing of the ENGINE depends on RX -/

/-- The same ENGINE, DMA, memory and trace with another RX. -/
def State.withRx (s : State) (r : Rx) : State := { s with rx := r }

/-- Both outcomes are next states, and these differ in RX at most. -/
inductive SameButRx : Host.Outcome State Fault Refusal → Host.Outcome State Fault Refusal → Prop
  | next (t : State) (r : Rx) : SameButRx (.next t) (.next (t.withRx r))

theorem SameButRx.ite {c : Prop} [Decidable c] {o u o' u' : Host.Outcome State Fault Refusal}
    (ho : SameButRx o o') (hu : SameButRx u u') : SameButRx (if c then o else u) (if c then o' else u') := by
  split
  · exact ho
  · exact hu

theorem SameButRx.of_next {t : State} {o : Host.Outcome State Fault Refusal} (h : SameButRx (.next t) o) :
    ∃ r, o = .next (t.withRx r) := by
  cases h with
  | next _ r => exact ⟨r, rfl⟩

section

variable (s : State) (r : Rx)

theorem bytesAt_withRx (a n : Nat) : (s.withRx r).bytesAt a n = s.bytesAt a n :=
  bytesAt_congr a n fun _ _ _ => rfl

@[simp] theorem withRx_cfg : (s.withRx r).cfg = s.cfg := rfl
@[simp] theorem withRx_effW : (s.withRx r).effW = s.effW := rfl
@[simp] theorem withRx_effH : (s.withRx r).effH = s.effH := rfl
@[simp] theorem withRx_front : (s.withRx r).front = s.front := rfl
@[simp] theorem withRx_back : (s.withRx r).back = s.back := rfl
@[simp] theorem withRx_screenBytes : (s.withRx r).screenBytes = s.screenBytes := rfl

theorem done_withRx (v : Word) : (s.withRx r).done v = (s.done v).withRx r := rfl

theorem emit_withRx (es : List Event) :
    (s.withRx r).emit es = (s.emit es).withRx (Rx.events s.cfg.toParams r es) := rfl

theorem sendScreen_withRx (bs : List Byte) :
    (s.withRx r).sendScreen bs
      = (s.sendScreen bs).withRx (Rx.events s.cfg.toParams r (s.screenWindow ++ btData bs)) := rfl

theorem pixStores_withRx (b : BitVec 1) (i n : Nat) (c : Half) :
    (s.withRx r).pixStores b i n c = (s.pixStores b i n c).withRx r := rfl

theorem countOob_withRx (c : Prop) [Decidable c] :
    (if c then (s.withRx r).countOob else s.withRx r) = (if c then s.countOob else s).withRx r := by
  split <;> rfl

theorem execFbInit_sameButRx : SameButRx (execFbInit s) (execFbInit (s.withRx r)) := by
  have hclear : (s.withRx r).clearBuffers = s.clearBuffers.withRx r := rfl
  refine .ite (.next _ _) ?_
  dsimp only
  rw [hclear, bytesAt_withRx, sendScreen_withRx, done_withRx]
  simp only [withRx_cfg, withRx_front]
  exact .next _ _

theorem execFbDrawline_sameButRx (x y len : Word) (c : Half) :
    SameButRx (execFbDrawline x y len c s) (execFbDrawline x y len c (s.withRx r)) := by
  refine .ite (.next _ _) (.ite (.next _ _) ?_)
  dsimp only
  rw [countOob_withRx, pixStores_withRx, done_withRx]
  simp only [withRx_effW, withRx_back]
  exact .next _ _

theorem execFbPresent_sameButRx : SameButRx (execFbPresent s) (execFbPresent (s.withRx r)) := by
  unfold execFbPresent
  rw [bytesAt_withRx, sendScreen_withRx, done_withRx]
  simp only [withRx_cfg, withRx_front, withRx_screenBytes]
  exact .ite (.next _ _) (.next _ _)

theorem execPdInit_sameButRx (handle : Word) :
    SameButRx (execPdInit handle s) (execPdInit handle (s.withRx r)) := by
  unfold execPdInit
  rw [initSequence_eq_broughtUp, initSequence_eq_broughtUp]
  exact .ite (.next _ _) (.ite (.next _ _) (.next _ _))

theorem execPdFillrect_sameButRx (x y w h : Word) (c : Half) :
    SameButRx (execPdFillrect x y w h c s) (execPdFillrect x y w h c (s.withRx r)) := by
  refine .ite (.next _ _) (.ite (.next _ _) ?_)
  dsimp only
  rw [countOob_withRx, emit_withRx, done_withRx]
  simp only [withRx_cfg, withRx_effW, withRx_effH]
  exact .next _ _

theorem memRead_withRx (a n : Nat) : (s.withRx r).memRead a n = s.memRead a n := by
  unfold State.memRead
  rw [bytesAt_withRx]
  rfl

theorem writeData_sameButRx (addr len : Word) :
    SameButRx (.next (writeData addr len s)) (.next (writeData addr len (s.withRx r))) := by
  unfold writeData
  rw [memRead_withRx, apply_ite Host.Outcome.next, apply_ite Host.Outcome.next]
  refine .ite (.next _ _) ?_
  cases s.memRead addr.toNat len.toNat <;> exact .next _ _

theorem btDmaDone_withRx :
    ∃ r', (s.withRx r).btDmaDone = (s.btDmaDone.1.withRx r', s.btDmaDone.2) := by
  unfold State.btDmaDone
  by_cases hactive : s.dma.active = false
  · rw [if_pos (by exact hactive), if_pos hactive]
    exact ⟨r, rfl⟩
  rw [if_neg (by exact hactive), if_neg hactive]
  by_cases hdone : s.dma.done = false
  · rw [if_pos (by exact hdone), if_pos hdone]
    exact ⟨r, rfl⟩
  · rw [if_neg (by exact hdone), if_neg hdone]
    exact ⟨_, rfl⟩

theorem dmaTurn_withRx : ∃ r', (s.withRx r).dmaTurn = s.dmaTurn.withRx r' := by
  have henabled : (s.withRx r).dmaEnabled = s.dmaEnabled := rfl
  unfold State.dmaTurn
  rw [henabled]
  split
  · exact ⟨_, rfl⟩
  · exact ⟨r, rfl⟩

theorem execPdDmadone_sameButRx : SameButRx (execPdDmadone s) (execPdDmadone (s.withRx r)) := by
  obtain ⟨r', h⟩ := btDmaDone_withRx s r
  refine .ite (.next _ _) ?_
  rw [h]
  obtain ⟨u, completed⟩ := s.btDmaDone
  cases completed <;> exact .next _ _

theorem exec_sameButRx (i : Instr) : SameButRx (exec i s) (exec i (s.withRx r)) :=
  match i with
  | .fbInit => execFbInit_sameButRx s r
  | .fbFill _ => .ite (.next _ _) (.next _ _)
  | .fbSetpixel _ _ _ => .ite (.next _ _) (.ite (.next _ _) (.next _ _))
  | .fbDrawline x y len c => execFbDrawline_sameButRx s r x y len c
  | .fbSwap => .next _ _
  | .fbPresent => execFbPresent_sameButRx s r
  | .pdInit handle => execPdInit_sameButRx s r handle
  | .pdSetrot _ => .ite (.next _ _) (.next _ _)
  | .pdSetwin _ _ _ _ => .ite (.next _ _) (.next _ _)
  | .pdWrdata addr len => writeData_sameButRx s r addr len
  | .pdFillrect x y w h c => execPdFillrect_sameButRx s r x y w h c
  | .pdDrawpixel _ _ _ => .ite (.next _ _) (.ite (.next _ _) (.next _ _))
  | .pdSenddma _ => .ite (.next _ _) (.ite (.next _ _) (.ite (.next _ _) (.next _ _)))
  | .pdDmadone => execPdDmadone_sameButRx s r
  | .pdGetw => .next _ _
  | .pdGeth => .next _ _
  | .pdWrpixels addr len => writeData_sameButRx s r addr len
  | .reserved _ => .next _ _
  | .columnRange _ => .next _ _
  | .rowRange _ => .next _ _
  | .beginMemoryWrite _ => .next _ _
  | .orientation _ => .next _ _
  | .displayOn _ => .next _ _
  | .vendor _ _ => .next _ _

theorem exec_withRx {i : Instr} {t : State} (h : exec i s = .next t) :
    ∃ r', exec i (s.withRx r) = .next (t.withRx r') := by
  have hsame := exec_sameButRx s r i
  rw [h] at hsame
  exact hsame.of_next

end

/-- The ENGINE's own reset and what it leaves, but for RX, are the same for every RX (70_reset_and_hazards.md R240). -/
theorem runAbandoned_withRx {s t : State} {k ms : Nat} (r : Rx) (h : runAbandoned s k ms = .next t) :
    ∃ r', runAbandoned (s.withRx r) k ms = .next (t.withRx r') := by
  obtain ⟨u, hu, -⟩ := exec_performs s.latchedInstr s
  obtain ⟨r', hu'⟩ := exec_withRx s r hu
  have hrun : runLatched (s.withRx r) = .next (u.withRx r') := hu'
  have hlatched : runLatched s = .next u := hu
  rw [runAbandoned, hlatched] at h
  rw [runAbandoned, hrun]
  cases h
  exact ⟨_, rfl⟩

theorem runWire_withRx {s t : State} {bytes : List Byte} (r : Rx) (h : runWire s bytes = .next t) :
    ∃ r', runWire (s.withRx r) bytes = .next (t.withRx r') := by
  cases bytes with
  | nil => cases h
  | cons b data => exact exec_withRx s r (i := wireCommand s.cfg.toParams b data) h

theorem stepBusy_withRx {s t : State} (r : Rx) (h : stepBusy s = .next t) :
    ∃ r', stepBusy (s.withRx r) = .next (t.withRx r') := by
  have hinputs : (s.withRx r).inputs = s.inputs := rfl
  unfold stepBusy at h ⊢
  rw [hinputs]
  split at h
  · exact runAbandoned_withRx r h
  · exact exec_withRx s r (i := s.latchedInstr) h

theorem stepIdle_withRx {s t : State} (r : Rx) (h : stepIdle s = .next t) :
    ∃ r', stepIdle (s.withRx r) = .next (t.withRx r') := by
  have hinputs : (s.withRx r).inputs = s.inputs := rfl
  unfold stepIdle at h ⊢
  rw [hinputs]
  split at h
  · cases h; exact ⟨_, rfl⟩
  · cases h; exact ⟨_, rfl⟩
  · exact runWire_withRx (s := s.consume) r h
  · cases h; exact ⟨_, rfl⟩
  · cases h
    obtain ⟨r', hturn⟩ := dmaTurn_withRx s.consume r
    exact ⟨r', congrArg Host.Outcome.next hturn⟩
  · cases h; exact ⟨_, rfl⟩
  · cases h; exact ⟨_, rfl⟩

/-- Settles O50: by cases on the step; every operation, and every other move, does the same for every RX. -/
theorem receiverDoesNotReachEngine : Obligations.ReceiverDoesNotReachEngine := by
  intro s t r h
  have hbusy : (s.withRx r).busy = s.busy := rfl
  show ∃ r', step (s.withRx r) = .next (t.withRx r')
  unfold step at h ⊢
  rw [hbusy]
  cases hb : s.busy <;> rw [hb] at h
  · exact stepIdle_withRx r h
  · exact stepBusy_withRx r h

end Sys2Proof.Machine
end

/-! ## A link kept free of violations (41_receiver.md R160) -/

section

namespace Sys2Proof

/-! ### The two ends' geometries agree (00_scope.md R11, 41_receiver.md R156) -/

theorem oneBit_cases : ∀ m : Byte, oneBit m = true → m ∈ ([1, 2, 4, 8, 16, 32, 64, 128] : List Byte) := by decide

theorem oneBit_disjoint {a b : Byte} (ha : oneBit a = true) (hb : oneBit b = true) (hne : a ≠ b) : a &&& b = 0 := by
  have hlist : ∀ a ∈ ([1, 2, 4, 8, 16, 32, 64, 128] : List Byte),
      ∀ b ∈ ([1, 2, 4, 8, 16, 32, 64, 128] : List Byte), a ≠ b → a &&& b = 0 := by decide
  exact hlist a (oneBit_cases a ha) b (oneBit_cases b hb) hne

/-- Bits of a mask that a second mask has none of (00_scope.md R11 (c)). -/
theorem and_eq_zero_of_subset {a b m : Byte} (ha : a &&& ~~~m = 0) (hb : m &&& b = 0) : a &&& b = 0 := by
  ext i hi
  have hai := congrArg (·[i]) ha
  have hbi := congrArg (·[i]) hb
  simp only [BitVec.ofNat_eq_ofNat, BitVec.getElem_and, BitVec.getElem_not, BitVec.getElem_zero] at hai hbi ⊢
  cases hm : m[i] <;> simp_all

/-- The colour-order bit is not the exchange flag (00_scope.md R11 (b), (c)). -/
theorem Config.colorOrder_exchange (c : Config) : c.colorOrderBit &&& c.maskEx = 0 := by
  have h := c.ok
  simp only [Params.wf, Params.masksOk, Params.orientBitsOk, Params.masks, Bool.and_eq_true, decide_eq_true_eq,
    List.all_cons, List.nodup_cons, List.mem_cons, List.not_mem_nil, or_false, not_or] at h
  obtain ⟨⟨⟨⟨⟨⟨-, ⟨-, -, hex, hbgr, -⟩, -, -, hne, -⟩, -, hcolor⟩, -⟩, -⟩, -⟩, -⟩ := h
  exact and_eq_zero_of_subset hcolor (oneBit_disjoint hbgr hex (Ne.symm hne))

end Sys2Proof

namespace Sys2Proof.Machine

open Sys2Proof

/-- The orientation byte has the exchange flag exactly for the rotations that exchange width and height. -/
theorem flagSet_orientByte (c : Config) (rot : BitVec 2) :
    flagSet (orientByte c.toParams rot) c.maskEx = rotSwaps rot := by
  obtain ⟨h0, h1, h2, h3⟩ := c.exchange
  have hentry : orientByte c.toParams rot &&& c.maskEx = orientEntry c.orientTable rot &&& c.maskEx := by
    rw [orientByte, BitVec.and_or_distrib_right, c.colorOrder_exchange]
    exact BitVec.or_zero
  have hrot : ∀ rot : BitVec 2, rot = 0 ∨ rot = 1 ∨ rot = 2 ∨ rot = 3 := by decide
  unfold flagSet
  rw [hentry]
  rcases hrot rot with rfl | rfl | rfl | rfl
  · exact decide_eq_false (not_not.2 h0)
  · exact decide_eq_true h1
  · exact decide_eq_false (not_not.2 h2)
  · exact decide_eq_true h3

/-- Once the panel is up, RX's geometry under the ENGINE's orientation byte is the ENGINE's. -/
theorem State.Inv.geometry {s : State} (h : s.Inv) (hup : s.pdState ≠ .uninitialized) :
    rxW s.cfg.toParams s.orient = s.effW.toNat ∧ rxH s.cfg.toParams s.orient = s.effH.toNat
      ∧ 1 ≤ s.effW.toNat ∧ 1 ≤ s.effH.toNat := by
  obtain ⟨⟨hw1, -, hh1, -⟩, -⟩ := s.cfg.bounds
  obtain ⟨hw, hh, -, -⟩ := panel_side_toNat s.cfg
  have horient : s.orient = orientByte s.cfg.toParams s.rot := h.orientation.resolve_right fun hreset => hup hreset.1
  rw [horient, h.width, h.height, rxW, rxH, rotW, rotH, flagSet_orientByte]
  split
  · rw [hw, hh]
    exact ⟨rfl, rfl, hh1, hw1⟩
  · rw [hw, hh]
    exact ⟨rfl, rfl, hw1, hh1⟩

/-! ### RX on the events of the block -/

/-- RX is out of reset past the settle floor, with no violation flag, and has the orientation byte `o`. -/
structure Rx.InStep (o : Byte) (r : Rx) : Prop where
  rst : r.rst = true
  noViol : r.viol = Viol.clear
  settled : rstSettleMin ≤ r.settleMs
  orient : r.orient = o

/-- The same with no half pixel pending. -/
structure Rx.Quiet (o : Byte) (r : Rx) : Prop extends Rx.InStep o r where
  whole : r.half = none

/-- RX writes memory, its pointer inside a valid window. -/
structure Rx.Streaming (p : Params) (o : Byte) (r : Rx) : Prop extends Rx.InStep o r where
  memwr : r.memwr = true
  cmd : r.cmd.isSome = true
  inside : r.pointerInside p

/-- Where an operation of the block leaves RX: it writes memory inside a valid window, or its last command ignores
further data bytes (70_reset_and_hazards.md R245). -/
def Rx.TakesData (p : Params) (r : Rx) : Prop :=
  (r.memwr = true ∧ r.cmd.isSome = true ∧ r.pointerInside p)
    ∨ (r.memwr = false ∧ (r.cmd = some p.opDispon ∨ (r.cmd = some p.opOrient ∧ 1 ≤ r.pidx)))

/-- RX between the operations of the block. -/
structure Rx.AtRest (p : Params) (o : Byte) (r : Rx) : Prop extends Rx.Quiet o r where
  command : r.TakesData p

theorem Rx.Streaming.atRest {p : Params} {o : Byte} {r : Rx} (h : r.Streaming p o) (hwhole : r.half = none) :
    r.AtRest p o :=
  { h with whole := hwhole, command := .inl ⟨h.memwr, h.cmd, h.inside⟩ }

theorem Rx.InStep.settle_marked {o : Byte} {r : Rx} (h : r.InStep o) :
    r.settleMs < rstSettleMin → r.viol.settle = true :=
  fun hlow => absurd h.settled (Nat.not_le.2 hlow)

theorem Rx.InStep.wait {o : Byte} {r : Rx} (h : r.InStep o) (p : Params) (ms : Nat) :
    Rx.event p r (.wait ms) = { r with settleMs := r.settleMs + ms } := by
  simp [event_wait, h.rst]

/-- A command after whole pixels, past the settle floor, sets no flag. -/
theorem Rx.Quiet.violAtCommand {o : Byte} {r : Rx} (h : r.Quiet o) : r.violAtCommand = Viol.clear := by
  have hlate : ¬ r.settleMs < rstSettleMin := Nat.not_lt.2 h.settled
  simp [Rx.violAtCommand, h.noViol, h.whole, hlate, Viol.clear]

theorem Rx.Quiet.commanded {o : Byte} {r : Rx} (h : r.Quiet o) (b : Byte) : (r.commanded b).Quiet o :=
  { h with noViol := h.violAtCommand, whole := rfl }

section

variable {c : Config} {o : Byte} {r : Rx}

/-- PD_SETWIN's five brackets are three wire commands (42_panel_driver.md R175). -/
theorem setWindow_eq_wireEvents (p : Params) (x0 y0 x1 y1 : Half) :
    setWindow p x0 y0 x1 y1 = wireEvents p.opColrange (rangeBytes x0 x1) ++ wireEvents p.opRowrange (rangeBytes y0 y1)
      ++ wireEvents p.opMemwrite [] := rfl

theorem quiet_columnRange (h : r.Quiet o) (x0 x1 : Half) :
    let t := Rx.events c.toParams r (wireEvents c.opColrange (rangeBytes x0 x1))
    t.Quiet o ∧ t.xs = x0 ∧ t.xe = x1 := by
  dsimp only
  rw [rx_columnRange h.rst]
  exact ⟨{ h.commanded c.opColrange with }, hi8_append_lo8 x0, hi8_append_lo8 x1⟩

theorem quiet_rowRange (h : r.Quiet o) (y0 y1 : Half) :
    let t := Rx.events c.toParams r (wireEvents c.opRowrange (rangeBytes y0 y1))
    t.Quiet o ∧ t.xs = r.xs ∧ t.xe = r.xe ∧ t.ys = y0 ∧ t.ye = y1 := by
  dsimp only
  rw [rx_rowRange h.rst]
  exact ⟨{ h.commanded c.opRowrange with }, rfl, rfl, hi8_append_lo8 y0, hi8_append_lo8 y1⟩

/-- Begin memory write in a valid window (41_receiver.md R151). -/
theorem streaming_memoryWrite (h : r.Quiet o) (hwin : windowValid c.toParams r = true) :
    let t := Rx.events c.toParams r (wireEvents c.opMemwrite [])
    t.Streaming c.toParams o ∧ t.half = none := by
  have hviol : (r.begun c.toParams c.opMemwrite).viol = Viol.clear := by
    simp [Rx.begun, h.violAtCommand, h.noViol, hwin, Viol.clear]
  have hrect := hwin
  simp only [windowValid, decide_eq_true_eq] at hrect
  obtain ⟨hcols, -, hrows, -⟩ := hrect
  dsimp only
  rw [rx_memoryWrite h.rst]
  exact ⟨{ h.commanded c.opMemwrite with
      noViol := hviol, memwr := rfl, cmd := rfl,
      inside := ⟨hwin, BitVec.le_refl _, hcols, BitVec.le_refl _, hrows⟩ }, rfl⟩

/-- A window inside the geometry leaves RX writing memory from its first cell (42_panel_driver.md R175). -/
theorem streaming_window (h : r.Quiet o) {x0 y0 x1 y1 : Half} (hx : x0 ≤ x1) (hx1 : x1.toNat < rxW c.toParams o)
    (hy : y0 ≤ y1) (hy1 : y1.toNat < rxH c.toParams o) :
    let t := Rx.events c.toParams r (setWindow c.toParams x0 y0 x1 y1)
    t.Streaming c.toParams o ∧ t.half = none := by
  dsimp only
  rw [setWindow_eq_wireEvents, Rx.events_append, Rx.events_append]
  obtain ⟨hcol, hxs, hxe⟩ := quiet_columnRange (c := c) h x0 x1
  obtain ⟨hrow, hxs', hxe', hys, hye⟩ := quiet_rowRange (c := c) hcol y0 y1
  refine streaming_memoryWrite hrow ?_
  rw [windowValid, decide_eq_true_eq, hrow.orient, hxs', hxe', hys, hye, hxs, hxe]
  exact ⟨hx, hx1, hy, hy1⟩

theorem streaming_pixel (h : r.Streaming c.toParams o) (px : Half) :
    (Rx.pixel c.toParams r px).Streaming c.toParams o := by
  obtain ⟨hin, hviol⟩ := pixel_pointerInside h.inside px
  rw [pixel_eq] at hin hviol ⊢
  exact { h with noViol := hviol.trans h.noViol, inside := hin }

theorem streaming_pixels (h : r.Streaming c.toParams o) (pxs : List Half) :
    (pxs.foldl (Rx.pixel c.toParams) r).Streaming c.toParams o := by
  induction pxs generalizing r with
  | nil => exact h
  | cons px pxs ih => exact ih (streaming_pixel h px)

/-- A byte of a pixel stream completes a pixel or is left as half of one (41_receiver.md R154). -/
theorem streaming_pixelByte (h : r.Streaming c.toParams o) (b : Byte) :
    (Rx.pixelByte c.toParams r b).Streaming c.toParams o
      ∧ (Rx.pixelByte c.toParams r b).half.isSome = !r.half.isSome := by
  unfold Rx.pixelByte
  cases hhalf : r.half with
  | none => exact ⟨{ h with }, rfl⟩
  | some first =>
    have hfirst : { r with half := none }.Streaming c.toParams o := { h with }
    refine ⟨streaming_pixel hfirst _, ?_⟩
    rw [(pixel_fields c.toParams _ _).2.2]
    rfl

/-- A data bracket with an even number of bytes leaves RX where an operation leaves it (41_receiver.md R160). -/
theorem atRest_data (h : r.AtRest c.toParams o) {bs : List Byte} (heven : bs.length % 2 = 0) :
    (Rx.events c.toParams r (btData bs)).AtRest c.toParams o := by
  have hleft : halfLeft bs = none := if_neg (by omega)
  have hquiet : (r.atLevels false true).Quiet o := { h.toQuiet with }
  rw [rx_data_bracket, foldl_byte_of_data h.rst h.settle_marked]
  rcases h.command with ⟨hmem, hcmd, hin⟩ | ⟨hmem, hcmd | ⟨hcmd, hidx⟩⟩
  · have hstream : (r.atLevels false true).Streaming c.toParams o :=
      { hquiet with memwr := hmem, cmd := hcmd, inside := hin }
    rw [foldl_dataByte_pixels (by exact hcmd) (by exact hmem) (by exact h.whole), hleft]
    have hend := streaming_pixels hstream (wholePixels bs)
    exact Rx.Streaming.atRest { hend with } rfl
  · rw [foldl_dataByte_displayOn (by exact hcmd) (by exact hmem)]
    exact { hquiet with command := .inr ⟨hmem, .inl hcmd⟩ }
  · have hidx' : (r.atLevels false true).pidx ≠ 0 := by
      show r.pidx ≠ 0
      omega
    rw [foldl_dataByte_orientation (by exact hcmd) (by exact hmem), if_neg hidx']
    exact { hquiet with command := .inr ⟨hmem, .inr ⟨hcmd, Nat.le_add_right_of_le hidx⟩⟩ }

/-- The orientation command sets RX's orientation byte (41_receiver.md R149). -/
theorem atRest_orientCommand (h : r.Quiet o) (o' : Byte) :
    (Rx.events c.toParams r (orientCommand c.toParams o')).AtRest c.toParams o' := by
  show (Rx.events c.toParams r (wireEvents c.opOrient [o'])).AtRest c.toParams o'
  rw [rx_orientation h.rst]
  exact { h.commanded c.opOrient with orient := rfl, command := .inr ⟨rfl, .inr ⟨rfl, Nat.le_refl 1⟩⟩ }

/-! ### PD_INIT's sequence (42_panel_driver.md R172) -/

theorem quiet_wait (h : r.Quiet o) (ms : Nat) : (Rx.event c.toParams r (.wait ms)).Quiet o := by
  rw [h.wait]
  exact { h with settled := Nat.le_add_right_of_le h.settled }

/-- The panel's reset pulse is long enough, and so is the settle time after it (70_reset_and_hazards.md R241). -/
theorem quiet_resetPulse (hrst : r.rst = true) (hviol : r.viol = Viol.clear) :
    (Rx.events c.toParams r (resetPulse c.toParams)).Quiet 0 := by
  obtain ⟨-, hhold, hsettle, -⟩ := c.bounds
  have hlong : ¬ c.tRstHold < rstHoldMin := Nat.not_lt.2 hhold
  rw [resetPulse, Rx.events_cons, event_rst_low c.toParams hrst, Rx.events_cons, event_wait, Rx.events_cons,
    event_rst_high c.toParams (by rfl), Rx.events_cons, event_wait]
  exact {
    rst := rfl
    noViol := by simp [Rx.panelReset, hviol, hlong, Viol.clear]
    settled := by simpa [Rx.panelReset, rstSettleMin] using hsettle
    orient := rfl
    whole := rfl }

theorem quiet_entryEvents (h : r.Quiet o) {e : InitEntry} (he : e.cmd ∉ c.namedCommands) :
    (Rx.events c.toParams r (entryEvents e)).Quiet o := by
  have hcmd : (Rx.events c.toParams r (wireEvents e.cmd e.params)).Quiet o := by
    rw [rx_vendor h.rst he]
    exact { h.commanded e.cmd with }
  show (Rx.events c.toParams r (wireEvents e.cmd e.params ++ _)).Quiet o
  rw [Rx.events_append]
  cases e.delay with
  | none => exact hcmd
  | some d => exact quiet_wait (c := c) hcmd d.toNat

theorem quiet_table (h : r.Quiet o) {es : List InitEntry} (hes : ∀ e ∈ es, e.cmd ∉ c.namedCommands) :
    (Rx.events c.toParams r (es.flatMap entryEvents)).Quiet o := by
  induction es generalizing r with
  | nil => exact h
  | cons e es ih =>
    rw [List.flatMap_cons, Rx.events_append]
    exact ih (quiet_entryEvents h (hes e (by simp))) fun e' he' => hes e' (List.mem_cons_of_mem _ he')

theorem atRest_displayOn (h : r.Quiet o) :
    (Rx.events c.toParams r (displayOnEvents c.toParams)).AtRest c.toParams o := by
  have hon : (Rx.events c.toParams r (wireEvents c.opDispon [])).AtRest c.toParams o := by
    rw [rx_displayOn h.rst]
    exact { h.commanded c.opDispon with command := .inr ⟨rfl, .inl rfl⟩ }
  have hevents : displayOnEvents c.toParams = wireEvents c.opDispon [] ++ [.wait c.tDispon] := rfl
  rw [hevents, Rx.events_append, Rx.events_cons, Rx.events_nil]
  have hwait := quiet_wait (c := c) hon.toQuiet c.tDispon
  rw [hon.wait] at hwait ⊢
  exact { hwait with command := hon.command }

/-- PD_INIT leaves RX between operations, with the default rotation's orientation byte. -/
theorem atRest_initEvents (hrst : r.rst = true) (hviol : r.viol = Viol.clear) (htable : vendorTable c.toParams) :
    (Rx.events c.toParams r (initEvents c)).AtRest c.toParams (orientByte c.toParams c.defaultRotation) := by
  unfold initEvents
  rw [Rx.events_append, Rx.events_append, Rx.events_append]
  exact atRest_displayOn (atRest_orientCommand (quiet_table (quiet_resetPulse hrst hviol) htable) _).toQuiet

/-! ### What an operation sends in Ready -/

/-- Windows inside RX's geometry under the orientation byte `o`, and data brackets of whole pixels. -/
inductive CleanItems (p : Params) (o : Byte) : List Event → Prop
  | nil : CleanItems p o []
  | data {bs : List Byte} (heven : bs.length % 2 = 0) : CleanItems p o (btData bs)
  | window {x0 y0 x1 y1 : Half} (hx : x0 ≤ x1) (hx1 : x1.toNat < rxW p o) (hy : y0 ≤ y1) (hy1 : y1.toNat < rxH p o) :
      CleanItems p o (setWindow p x0 y0 x1 y1)
  | append {es fs : List Event} : CleanItems p o es → CleanItems p o fs → CleanItems p o (es ++ fs)

theorem CleanItems.atRest {es : List Event} (hes : CleanItems c.toParams o es) (h : r.AtRest c.toParams o) :
    (Rx.events c.toParams r es).AtRest c.toParams o := by
  induction hes generalizing r with
  | nil => exact h
  | data heven => exact atRest_data h heven
  | window hx hx1 hy hy1 =>
    obtain ⟨hstream, hwhole⟩ := streaming_window h.toQuiet hx hx1 hy hy1
    exact hstream.atRest hwhole
  | append _ _ ihe ihf =>
    rw [Rx.events_append]
    exact ihf (ihe h)

theorem CleanItems.flatten {p : Params} {o : Byte} {ess : List (List Event)} (h : ∀ es ∈ ess, CleanItems p o es) :
    CleanItems p o ess.flatten := by
  induction ess with
  | nil => exact .nil
  | cons es ess ih => exact .append (h es (by simp)) (ih fun fs hfs => h fs (List.mem_cons_of_mem _ hfs))

/-- PD_FILLRECT's brackets hold whole pixels (42_panel_driver.md R178). -/
theorem cleanItems_fillEvents (p : Params) (o : Byte) (color : Half) (n : Nat) :
    CleanItems p o (fillEvents p color n) := by
  unfold fillEvents
  split
  · rw [List.flatMap_def]
    refine .flatten fun es hes => ?_
    obtain ⟨k, -, rfl⟩ := List.mem_map.1 hes
    exact .data (by simp)
  · refine .flatten fun es hes => ?_
    rw [List.eq_of_mem_replicate hes]
    exact .data (by rw [wireHalf_length])

end

end Sys2Proof.Machine
end

/-! ## The moves of the block keep the link clean (41_receiver.md R160) -/

section

namespace Sys2Proof.Machine

open Sys2Proof

/-- RX sees the lines that the ENGINE drives (10_state.md R30, R40). -/
def State.LinesSeen (s : State) : Prop := s.rx.cs = s.cs ∧ s.rx.dc = s.dc ∧ s.rx.rst = s.rst

/-- Events of the ENGINE reach RX as they reach the lines. -/
theorem State.LinesSeen.emit {s : State} (h : s.LinesSeen) (es : List Event) : (s.emit es).LinesSeen := by
  obtain ⟨hcs, hdc, hrst⟩ := h
  have hlines := events_lines s.cfg.toParams s.rx es
  rwa [hcs, hdc, hrst] at hlines

/-- In Ready the link is clean where RX stands between operations. -/
theorem linkClean_of_ready {s : State} (hready : s.pdState = .ready) (hlines : s.LinesSeen)
    (h : s.rx.AtRest s.cfg.toParams s.orient) : s.LinkClean where
  lines := hlines
  noViol := h.noViol
  settled := fun _ => h.settled
  sameOrient := fun _ => h.orient
  command := fun _ => h.command
  whole := fun _ => h.whole
  streaming := fun hbusy => by rw [hready] at hbusy; cases hbusy

/-- In Busy the link is clean where RX streams, with half a pixel pending exactly when an odd number of bytes is
left. -/
theorem linkClean_of_busy {s : State} (hbusy : s.pdState = .busy) (hlines : s.LinesSeen)
    (h : s.rx.Streaming s.cfg.toParams s.orient) (hhalf : s.rx.half.isSome = true ↔ s.dma.rem.toNat % 2 = 1) :
    s.LinkClean where
  lines := hlines
  noViol := h.noViol
  settled := fun _ => h.settled
  sameOrient := fun _ => h.orient
  command := fun _ => .inl ⟨h.memwr, h.cmd, h.inside⟩
  whole := fun hready => by rw [hbusy] at hready; cases hready
  streaming := fun _ => ⟨h.memwr, hhalf⟩

namespace State.LinkClean

variable {s : State}

theorem done (h : s.LinkClean) (v : Word) : (s.done v).LinkClean := { h with }

theorem countOob (h : s.LinkClean) : s.countOob.LinkClean := { h with }

theorem consume (h : s.LinkClean) : s.consume.LinkClean := { h with }

theorem memWrite (h : s.LinkClean) (a : Nat) (v : List Byte) : (s.memWrite a v).LinkClean := { h with }

theorem clamped (h : s.LinkClean) {i : Instr} {u : State} (hu : Clamped s i u) : u.LinkClean := by
  cases hu with
  | whole => exact h
  | counted _ => exact h.countOob

/-- RX once the panel is up. -/
theorem inStep (h : s.LinkClean) (hinv : s.Inv) (hup : s.pdState ≠ .uninitialized) : s.rx.InStep s.orient where
  rst := h.lines.2.2.trans hinv.rstHigh
  noViol := h.noViol
  settled := h.settled hup
  orient := h.sameOrient hup

/-- RX in Ready. -/
theorem atRest (h : s.LinkClean) (hinv : s.Inv) (hready : s.pdState = .ready) :
    s.rx.AtRest s.cfg.toParams s.orient :=
  have hup : s.pdState ≠ .uninitialized := by simp [hready]
  { h.inStep hinv hup with whole := h.whole hready, command := h.command hup }

/-- RX during a transfer. -/
theorem streamingRx (h : s.LinkClean) (hinv : s.Inv) (hbusy : s.pdState = .busy) :
    s.rx.Streaming s.cfg.toParams s.orient := by
  have hup : s.pdState ≠ .uninitialized := by simp [hbusy]
  obtain ⟨hmem, -⟩ := h.streaming hbusy
  rcases h.command hup with ⟨-, hcmd, hin⟩ | ⟨hnot, -⟩
  · exact { h.inStep hinv hup with memwr := hmem, cmd := hcmd, inside := hin }
  · rw [hmem] at hnot
    cases hnot

/-- Whole pixels and windows inside the geometry, sent in Ready, keep the link clean. -/
theorem emit (h : s.LinkClean) (hinv : s.Inv) (hready : s.pdState = .ready) {es : List Event}
    (hes : CleanItems s.cfg.toParams s.orient es) : (s.emit es).LinkClean :=
  linkClean_of_ready hready (State.LinesSeen.emit h.lines es) (hes.atRest (h.atRest hinv hready))

end State.LinkClean

/-! ### The operations that use the link in Ready (42_panel_driver.md R171) -/

/-- The outcome, if it is a next state, is one with a clean link. -/
def EndsClean (o : Host.Outcome State Fault Refusal) : Prop := ∀ t, o = .next t → t.LinkClean

theorem EndsClean.next {t : State} (h : t.LinkClean) : EndsClean (.next t) := by
  intro u hu
  cases hu
  exact h

section

variable {s : State}

/-- The window of the whole screen lies inside RX's geometry (42_panel_driver.md R180). -/
theorem screen_inside (hinv : s.Inv) (hready : s.pdState = .ready) :
    (0 : Half) ≤ s.effW - 1 ∧ (s.effW - 1).toNat < rxW s.cfg.toParams s.orient
      ∧ (0 : Half) ≤ s.effH - 1 ∧ (s.effH - 1).toNat < rxH s.cfg.toParams s.orient := by
  obtain ⟨hw, hh, hw1, hh1⟩ := hinv.geometry (by simp [hready])
  rw [hw, hh]
  refine ⟨?_, ?_, ?_, ?_⟩ <;> bv_omega

/-- A screen sent with an even number of bytes. -/
theorem cleanItems_screen (hinv : s.Inv) (hready : s.pdState = .ready) {bs : List Byte} (heven : bs.length % 2 = 0) :
    CleanItems s.cfg.toParams s.orient (s.screenWindow ++ btData bs) := by
  obtain ⟨hx, hx1, hy, hy1⟩ := screen_inside hinv hready
  exact .append (.window hx hx1 hy hy1) (.data heven)

/-- The coordinates of `n` cells from `i` on, inside a side of the geometry, fit their 16 bits. -/
theorem span_inside {side : Half} {i n : Nat} (hn : 1 ≤ n) (hin : i + n ≤ side.toNat) :
    BitVec.ofNat 16 i ≤ BitVec.ofNat 16 (i + n - 1) ∧ (BitVec.ofNat 16 (i + n - 1)).toNat < side.toNat := by
  have hside := side.isLt
  rw [BitVec.le_def, BitVec.toNat_ofNat, BitVec.toNat_ofNat]
  omega

/-- The window of a rectangle inside the screen. -/
theorem cleanItems_rectangle (hinv : s.Inv) (hready : s.pdState = .ready) {x y w ht : Nat} (hw : 1 ≤ w)
    (hht : 1 ≤ ht) (hx : x + w ≤ s.effW.toNat) (hy : y + ht ≤ s.effH.toNat) :
    CleanItems s.cfg.toParams s.orient (setWindow s.cfg.toParams (BitVec.ofNat 16 x) (BitVec.ofNat 16 y)
      (BitVec.ofNat 16 (x + w - 1)) (BitVec.ofNat 16 (y + ht - 1))) := by
  obtain ⟨hrw, hrh, -, -⟩ := hinv.geometry (by simp [hready])
  obtain ⟨hcols, hx1⟩ := span_inside hw hx
  obtain ⟨hrows, hy1⟩ := span_inside hht hy
  exact .window hcols (by rwa [hrw]) hrows (by rwa [hrh])

variable (h : s.LinkClean) (hinv : s.Inv)

include h hinv

theorem execFbInit_endsClean : EndsClean (execFbInit s) := by
  unfold execFbInit
  split
  · exact .next (h.done 0)
  rename_i hready
  have hready : s.clearBuffers.pdState = .ready := not_not.1 hready
  have hinv' : s.clearBuffers.Inv := (hinv.memWrite _ _).memWrite _ _
  have h' : s.clearBuffers.LinkClean := (h.memWrite _ _).memWrite _ _
  refine .next ((h'.emit hinv' hready (cleanItems_screen hinv' hready ?_)).done 1)
  rw [bytesAt_length]
  exact Nat.mul_mod_left _ 2

theorem execFbPresent_endsClean : EndsClean (execFbPresent s) := by
  unfold execFbPresent
  split
  · exact .next (h.done 0)
  rename_i hready
  have hready : s.pdState = .ready := not_not.1 hready
  refine .next ((h.emit hinv hready (cleanItems_screen hinv hready ?_)).done 1)
  rw [bytesAt_length]
  exact Nat.mul_mod_left _ 2

theorem execPdSetrot_endsClean (rot : BitVec 2) : EndsClean (execPdSetrot rot s) := by
  unfold execPdSetrot
  split
  · exact .next (h.done 0)
  rename_i hready
  have hready : s.pdState = .ready := not_not.1 hready
  have hlines : (s.applyRotation rot).LinesSeen := State.LinesSeen.emit (s := s.setRotation rot) h.lines _
  have hrest := atRest_orientCommand (c := s.cfg) (h.atRest hinv hready).toQuiet (orientByte s.cfg.toParams rot)
  exact .next ((linkClean_of_ready (s := s.applyRotation rot) hready hlines hrest).done 1)

theorem execPdSetwin_endsClean {x0 y0 x1 y1 : Half} (hkept : contractKept s (.pdSetwin x0 y0 x1 y1)) :
    EndsClean (execPdSetwin x0 y0 x1 y1 s) := by
  unfold execPdSetwin
  split
  · exact .next (h.done 0)
  rename_i hready
  have hready : s.pdState = .ready := not_not.1 hready
  obtain ⟨hw, hh, -, -⟩ := hinv.geometry (by simp [hready])
  obtain ⟨hx, hx1, hy, hy1⟩ := hkept
  exact .next ((h.emit hinv hready (.window hx (by rw [hw]; exact hx1) hy (by rw [hh]; exact hy1))).done 1)

theorem writeData_linkClean {addr len : Word} (heven : len.toNat % 2 = 0) : (writeData addr len s).LinkClean := by
  rcases writeData_cases addr len s with ⟨-, heq⟩ | ⟨hready, -, -, heq⟩ <;> rw [heq]
  · exact h.done 0
  · exact (h.emit hinv hready (.data (by rwa [bytesAt_length]))).done 1

theorem execPdFillrect_endsClean (x y w ht : Word) (color : Half) : EndsClean (execPdFillrect x y w ht color s) := by
  unfold execPdFillrect
  split
  · exact .next (h.done 0)
  rename_i hready
  have hready : s.pdState = .ready := not_not.1 hready
  split
  · exact .next (h.countOob.done 1)
  rename_i hin
  have hw : w.toNat ≠ 0 := fun h0 => hin (.inr (.inr (.inl (BitVec.eq_of_toNat_eq h0))))
  have hht : ht.toNat ≠ 0 := fun h0 => hin (.inr (.inr (.inr (BitVec.eq_of_toNat_eq h0))))
  have hcols : 1 ≤ clampLen w.toNat s.effW.toNat x.toNat
      ∧ x.toNat + clampLen w.toNat s.effW.toNat x.toNat ≤ s.effW.toNat := by
    unfold clampLen
    omega
  have hrows : 1 ≤ clampLen ht.toNat s.effH.toNat y.toNat
      ∧ y.toNat + clampLen ht.toNat s.effH.toNat y.toNat ≤ s.effH.toNat := by
    unfold clampLen
    omega
  have hes := CleanItems.append (cleanItems_rectangle hinv hready hcols.1 hrows.1 hcols.2 hrows.2)
    (cleanItems_fillEvents s.cfg.toParams s.orient color
      (clampLen w.toNat s.effW.toNat x.toNat * clampLen ht.toNat s.effH.toNat y.toNat))
  dsimp only
  split
  · exact .next ((h.countOob.emit hinv.countOob hready hes).done 1)
  · exact .next ((h.emit hinv hready hes).done 1)

theorem execPdDrawpixel_endsClean (x y : Word) (color : Half) : EndsClean (execPdDrawpixel x y color s) := by
  unfold execPdDrawpixel
  split
  · exact .next (h.done 0)
  rename_i hready
  have hready : s.pdState = .ready := not_not.1 hready
  split
  · exact .next (h.countOob.done 1)
  rename_i hin
  have hes := cleanItems_rectangle hinv hready (x := x.toNat) (y := y.toNat) (Nat.le_refl 1) (Nat.le_refl 1)
    (by omega) (by omega)
  exact .next ((h.emit hinv hready (.append hes (.data (by rw [wireHalf_length])))).done 1)

theorem streaming_screenWindow (hready : s.pdState = .ready) :
    (Rx.events s.cfg.toParams s.rx s.screenWindow).Streaming s.cfg.toParams s.orient
      ∧ (Rx.events s.cfg.toParams s.rx s.screenWindow).half = none := by
  obtain ⟨hx, hx1, hy, hy1⟩ := screen_inside hinv hready
  exact streaming_window (h.atRest hinv hready).toQuiet hx hx1 hy hy1

/-- A transfer starts with an even number of bytes left and no half pixel pending (42_panel_driver.md R180). -/
theorem transferStarted_linkClean (hready : s.pdState = .ready) (addr : Word) : (s.transferStarted addr).LinkClean := by
  obtain ⟨hstream, hwhole⟩ := streaming_screenWindow h hinv hready
  have hcfg : (s.transferStarted addr).cfg = s.cfg := by simp [State.transferStarted]
  have horient : (s.transferStarted addr).orient = s.orient := by simp [State.transferStarted]
  have hrem : (s.transferStarted addr).dma.rem.toNat = s.screenBytes := hinv.screenBytes_toNat
  have heven : s.screenBytes % 2 = 0 := Nat.mul_mod_left _ 2
  have hrx : (s.transferStarted addr).rx
      = Rx.events s.cfg.toParams (Rx.events s.cfg.toParams s.rx s.screenWindow) [.cs false, .dc true] := by
    simp only [State.transferStarted, State.emit_rx, Rx.events_append]
  have hlines := State.LinesSeen.emit h.lines (s.screenWindow ++ [.cs false, .dc true])
  refine linkClean_of_busy rfl { hlines with } ?_ ?_
  · rw [hrx, hcfg, horient]
    generalize Rx.events s.cfg.toParams s.rx s.screenWindow = opened at hstream
    exact { hstream with }
  · have hnone : (s.transferStarted addr).rx.half = none := by
      rw [hrx]
      exact hwhole
    rw [hrem, heven, hnone]
    simp

theorem execPdSenddma_endsClean (addr : Word) : EndsClean (execPdSenddma addr s) := by
  unfold execPdSenddma
  split
  · exact .next (h.done 0)
  split
  · exact .next (h.done 0)
  rename_i hready
  split
  · exact .next (h.done 0)
  · dsimp only
    rw [btDataDma_eq_transferStarted]
    exact .next ((transferStarted_linkClean h hinv (not_not.1 hready) addr).done 1)

/-- An operation that uses the link in Ready, and keeps its contract, leaves the link clean. -/
theorem linkClean_of_needsReady {i : Instr} (hi : needsReady i = true) (hkept : contractKept s i) :
    EndsClean (exec i s) := by
  cases i with
  | fbInit => exact execFbInit_endsClean h hinv
  | fbPresent => exact execFbPresent_endsClean h hinv
  | pdSetrot rot => exact execPdSetrot_endsClean h hinv rot
  | pdSetwin x0 y0 x1 y1 => exact execPdSetwin_endsClean h hinv hkept
  | pdWrdata addr len => exact .next (writeData_linkClean h hinv hkept)
  | pdWrpixels addr len => exact .next (writeData_linkClean h hinv hkept)
  | pdFillrect x y w ht color => exact execPdFillrect_endsClean h hinv x y w ht color
  | pdDrawpixel x y color => exact execPdDrawpixel_endsClean h hinv x y color
  | pdSenddma addr => exact execPdSenddma_endsClean h hinv addr
  | _ => cases hi

/-! ### The other operations -/

/-- PD_INIT leaves the link clean where the init table has vendor commands only (42_panel_driver.md R172). -/
theorem broughtUp_linkClean (htable : vendorTable s.cfg.toParams) : s.broughtUp.LinkClean :=
  linkClean_of_ready rfl (State.LinesSeen.emit h.lines _)
    (atRest_initEvents (h.lines.2.2.trans hinv.rstHigh) h.noViol htable)

/-- A transfer ends with no byte left, so with no half pixel pending (42_panel_driver.md R181). -/
theorem transferEnded_linkClean (hactive : s.dma.active = true) (hdone : s.dma.done = true) :
    s.transferEnded.LinkClean := by
  have hflight : s.xfer = .inFlight := hinv.activeIff.2 hactive
  have hbusy : s.pdState = .busy := hinv.busyIff.2 hflight
  have hrem : s.dma.rem = 0 := (hinv.doneIff hflight).1 hdone
  have hwhole : s.rx.half = none := by
    have hhalf := (h.streaming hbusy).2
    rw [hrem] at hhalf
    simpa using hhalf
  have hstream := h.streamingRx hinv hbusy
  exact linkClean_of_ready rfl (State.LinesSeen.emit h.lines _)
    (Rx.Streaming.atRest (r := { s.rx with cs := true }) { hstream with } hwhole)

/-- An operation that may run outside Ready leaves the link clean. -/
theorem linkClean_of_effect {i : Instr} {t : State} (heff : Effect s i t) (hi : needsReady i = false)
    (hhost : hostOperation i = true) (htable : vendorTable s.cfg.toParams) : t.LinkClean := by
  cases heff with
  | answer v _ _ => exact h.done v
  | drop _ => exact h.countOob.done 1
  | draw _ _ hu _ => exact ((h.clamped hu).memWrite _ _).done 1
  | swap => exact { h with }
  | bringUp _ _ => exact (broughtUp_linkClean h hinv htable).done 1
  | endTransfer _ hactive hdone => exact (transferEnded_linkClean h hinv hactive hdone).done 1
  | endNoTransfer hflight hactive => exact absurd (hinv.idle_of_inactive hactive) hflight
  | receive _ hwire => rw [hhost] at hwire; cases hwire
  | send hready _ _ _ => rw [hi] at hready; cases hready
  | clear _ _ => cases hi
  | rotate _ => cases hi
  | startTransfer _ _ _ => cases hi

/-- Every host operation that keeps its contract leaves the link clean. -/
theorem linkClean_of_exec {i : Instr} {t : State} (hexec : exec i s = .next t) (hhost : hostOperation i = true)
    (hkept : contractKept s i) (htable : vendorTable s.cfg.toParams) : t.LinkClean := by
  cases hi : needsReady i with
  | true => exact linkClean_of_needsReady h hinv hi hkept t hexec
  | false => exact linkClean_of_effect h hinv (exec_effect hexec) hi hhost htable

/-! ### The other moves of the block -/

/-- DMA's byte leaves half a pixel pending exactly when an odd number of bytes is left (40_bus_transport.md R125). -/
theorem dmaSend_linkClean (hactive : s.dma.active = true) (hrem : s.dma.rem ≠ 0) : s.dmaSend.LinkClean := by
  have hflight : s.xfer = .inFlight := hinv.activeIff.2 hactive
  have hbusy : s.pdState = .busy := hinv.busyIff.2 hflight
  have hstream := h.streamingRx hinv hbusy
  obtain ⟨hcs, hdc, -⟩ := h.lines
  have hrx : s.dmaSend.rx = Rx.pixelByte s.cfg.toParams s.rx (s.byteAt s.dma.ptr.toNat) := by
    show Rx.byte s.cfg.toParams s.rx _ = _
    rw [byte_of_data _ _ _ (hcs.trans (hinv.csIff.2 hflight)) (hdc.trans (hinv.dcHigh hflight)) hstream.rst,
      checkSettle_eq_self hstream.settle_marked, dataByte_of_memwr hstream.cmd hstream.memwr]
  obtain ⟨hnext, htoggle⟩ := streaming_pixelByte hstream (s.byteAt s.dma.ptr.toNat)
  refine linkClean_of_busy hbusy (State.LinesSeen.emit h.lines _) (by rw [hrx]; exact hnext) ?_
  have hhalf := (h.streaming hbusy).2
  have hless : s.dmaSend.dma.rem.toNat = s.dma.rem.toNat - 1 := by
    show (s.dma.rem - 1).toNat = _
    bv_omega
  have hpos : s.dma.rem.toNat ≠ 0 := fun h0 => hrem (BitVec.eq_of_toNat_eq h0)
  rw [hrx, htoggle, hless, Bool.not_eq_true', ← Bool.not_eq_true, hhalf]
  omega

theorem dmaTurn_linkClean : s.dmaTurn.LinkClean := by
  rcases dmaTurn_cases s with ⟨hactive, hrem, hturn⟩ | ⟨-, hturn⟩ <;> rw [hturn]
  · exact dmaSend_linkClean h hinv hactive hrem
  · exact h

/-- The ENGINE's own reset between operations returns the lines that RX sees (70_reset_and_hazards.md R240). -/
theorem engineReset_linkClean : (s.engineReset []).LinkClean := by
  have hrst : s.rx.rst = true := h.lines.2.2.trans hinv.rstHigh
  have hrx : (s.engineReset []).rx = s.rx.atLevels true true := if_pos hrst
  exact {
    lines := by rw [hrx]; exact ⟨rfl, rfl, hrst⟩
    noViol := by rw [hrx]; exact h.noViol
    settled := fun hup => absurd rfl hup
    sameOrient := fun hup => absurd rfl hup
    command := fun hup => absurd rfl hup
    whole := fun hready => by cases hready
    streaming := fun hbusy => by cases hbusy }

end

/-- What a step of the block can do: no other driver of the link moves, no operation is cut short. -/
inductive BlockMove (s : State) : State → Prop
  | operation {t : State} (hb : s.busy = true) (h : exec s.latchedInstr s = .next t) : BlockMove s t
  | reset : BlockMove s (s.consume.engineReset [])
  | idle : BlockMove s s.lowerValid
  | accept (w : CommandWord) : BlockMove s (s.consume.accept w)
  | dma : BlockMove s s.consume.dmaTurn

/-- The inversion of `step` for moves of the block. -/
theorem step_blockMove {s t : State} (hmoves : s.blockMoves) (h : step s = .next t) : BlockMove s t := by
  unfold State.blockMoves at hmoves
  unfold step at h
  split at h
  · rename_i hb
    unfold stepBusy at h
    split at h
    · rename_i hin
      rw [hin] at hmoves
      exact absurd hb (by simpa using hmoves)
    · exact .operation hb h
  · rename_i hb
    unfold stepIdle at h
    split at h
    · cases h; exact .idle
    · cases h; exact .accept _
    · rename_i hin
      rw [hin] at hmoves
      exact absurd hmoves hb
    · rename_i hin
      rw [hin] at hmoves
      exact absurd hmoves hb
    · cases h; exact .dma
    · cases h; exact .reset
    · cases h; exact .reset

/-- Settles O46: by cases on what a step of the block can do. -/
theorem blockSetsNoViolation : Obligations.BlockSetsNoViolation := by
  intro s t hinv h htable hmoves hkept hstep
  cases step_blockMove hmoves hstep with
  | operation hb hexec => exact linkClean_of_exec h hinv hexec (Laws.hostOperation_decodeCw _ _) (hkept hb) htable
  | reset => exact engineReset_linkClean h.consume hinv.consume
  | idle => exact { h with }
  | accept w => exact { h with }
  | dma => exact dmaTurn_linkClean h.consume hinv.consume

end Sys2Proof.Machine
end

/-! ## The Panel Driver's operations (42_panel_driver.md) -/

section

namespace Sys2Proof.Machine

open Sys2Proof

/-! ### Refusals and getters -/

/-- Settles O37: the Ready check stands first in each of the operations; PD_SENDDMA has a second one before it, with the
same answer. -/
theorem linkOperationsNeedReady : Obligations.LinkOperationsNeedReady := by
  intro s i hi hready
  have hwrite : ∀ addr len, writeData addr len s = s.refuse := fun _ _ => if_pos hready
  cases i with
  | fbInit => exact if_pos hready
  | fbPresent => exact if_pos hready
  | pdSetrot rot => exact if_pos hready
  | pdSetwin x0 y0 x1 y1 => exact if_pos hready
  | pdWrdata addr len => exact congrArg Host.Outcome.next (hwrite addr len)
  | pdWrpixels addr len => exact congrArg Host.Outcome.next (hwrite addr len)
  | pdFillrect x y w h color => exact if_pos hready
  | pdDrawpixel x y color => exact if_pos hready
  | pdSenddma addr =>
    by_cases hx : s.xfer = .inFlight
    · exact if_pos hx
    · exact (if_neg hx).trans (if_pos hready)
  | _ => cases hi

/-- Settles O36: an effective size keeps its value in 32 bits. -/
theorem gettersAnswerGeometry : Obligations.GettersAnswerGeometry := by
  intro s
  have hzext : ∀ v : Half, (v.setWidth 32).toNat = v.toNat := fun v =>
    BitVec.toNat_setWidth_of_le (by decide)
  exact ⟨s.effW.setWidth 32, s.effH.setWidth 32, rfl, hzext s.effW, rfl, hzext s.effH⟩

/-! ### An operation that sends events and answers 1 -/

/-- What is left of an operation that sent the events `es` and answered 1: the trace, RX and two of the lines moved,
nothing else. -/
theorem sent_eq {es : List Event} {cs dc : Bool}
    (hlines : ∀ l, es.foldl csAfter l = cs ∧ es.foldl dcAfter l = dc ∧ es.foldl rstAfter l = l) (s : State) :
    (s.emit es).done 1 = { s with
      cs := cs, dc := dc, rx := Rx.events s.cfg.toParams s.rx es, trace := s.trace ++ es,
      rsp := 1, busy := false, rspValid := true } := by
  simp only [State.done, State.emit, hlines]

/-! ### PD_WRDATA (42_panel_driver.md R177) -/

/-- PD_WRDATA and PD_WRPIXELS have one meaning (30_encoding.md R111). -/
theorem exec_writeData {i : Instr} {addr len : Word} (hi : i = .pdWrdata addr len ∨ i = .pdWrpixels addr len)
    (s : State) : exec i s = .next (writeData addr len s) := by
  rcases hi with rfl | rfl <;> rfl

/-- Settles O31: by the two ways in which the shared meaning can end. -/
theorem pdWrdataStreamsRange : Obligations.PdWrdataStreamsRange := by
  intro s addr len i hi
  rw [exec_writeData hi]
  rcases writeData_cases addr len s with ⟨hwhy, heq⟩ | ⟨hready, hlen, haddr, heq⟩ <;> rw [heq]
  · refine ⟨fun _ => rfl, fun ⟨hready, hlen, haddr⟩ => ?_⟩
    have hout := hwhy.resolve_left (not_not.2 hready)
    omega
  · refine ⟨fun hwhy => ?_, fun _ => ⟨_, s.bytesAt addr.toNat len.toNat, rfl,
      sent_eq (fun l => btData_lines l _) s, rfl, bytesAt_length .., fun k hk => ?_⟩⟩
    · have hout := hwhy.resolve_left (not_not.2 hready)
      omega
    · rw [bytesAt_getElem?, if_pos hk]

/-! ### PD_INIT (42_panel_driver.md R172) -/

theorem exec_pdInit_first {s : State} {handle : Word} (hfirst : s.pdState = .uninitialized)
    (hvalid : handleValid s.cfg.toParams handle = true) : exec (.pdInit handle) s = .next (s.broughtUp.done 1) := by
  show execPdInit handle s = _
  rw [execPdInit, if_neg (not_not.2 hfirst), if_neg (by simp [hvalid]), initSequence_eq_broughtUp]

theorem exec_pdInit_refused {s : State} {handle : Word}
    (h : s.pdState ≠ .uninitialized ∨ handleValid s.cfg.toParams handle = false) :
    exec (.pdInit handle) s = .next s.refuse := by
  show execPdInit handle s = _
  unfold execPdInit
  split
  · rfl
  · rename_i hfirst
    exact if_pos (h.resolve_left hfirst)

/-- An init-table entry's events, with its delay as a list of at most one wait (42_panel_driver.md R172). -/
theorem entryEvents_eq (e : InitEntry) :
    entryEvents e = btCmd e.cmd ++ (if e.params = [] then [] else btData e.params)
      ++ e.delay.toList.map (fun d => Event.wait d.toNat) := by
  unfold entryEvents
  cases e.delay <;> rfl

/-- PD_INIT ends with display-on's command bracket and its wait, and the reset line is high from the pulse on. -/
theorem initEvents_lines (c : Config) (l : Bool) :
    (initEvents c).foldl csAfter l = true ∧ (initEvents c).foldl dcAfter l = false
      ∧ (initEvents c).foldl rstAfter l = true := by
  have htable := (WholeItems.flatMap (p := c.toParams) (wholeItems_entryEvents c.toParams) c.initTable).lines.2
  have hpulse : (resetPulse c.toParams).foldl rstAfter l = true := rfl
  refine ⟨?_, ?_, ?_⟩
  · simp [initEvents, displayOnEvents, List.foldl_append, csAfter]
  · simp [initEvents, displayOnEvents, List.foldl_append, dcAfter]
  · simp [initEvents, displayOnEvents, orientCommand, List.foldl_append, hpulse, htable, rstAfter]

/-- The init table has at most 255 entries (00_scope.md R8). -/
theorem initTable_length_le (c : Config) : c.initTable.length ≤ 255 := by
  have h := c.ok
  simp only [Params.wf, Params.tableOk, Bool.and_eq_true, decide_eq_true_eq] at h
  obtain ⟨⟨-, hlen, -⟩, -⟩ := h
  exact hlen

/-- Settles O27: the sequence is one emission, and the last entry's index fits its eight bits. -/
theorem pdInitBringsUpPanel : Obligations.PdInitBringsUpPanel := by
  intro s handle
  refine ⟨exec_pdInit_refused, fun hfirst hvalid => ⟨_, exec_pdInit_first hfirst hvalid, ?_, ?_, ?_, ?_⟩⟩
  · simp only [State.done, State.broughtUp, State.emit, initEvents_lines]
  · intro hempty
    exact if_pos hempty
  · intro hne
    have hpos := List.length_pos_iff.2 hne
    have hle := initTable_length_le s.cfg
    show (if s.cfg.initTable = [] then s.seqIdx
      else BitVec.ofNat 8 (s.cfg.initTable.length - 1)).toNat + 1 = _
    rw [if_neg hne, BitVec.toNat_ofNat]
    omega
  · simp only [← entryEvents_eq]
    rfl

/-! ### PD_SETROT (42_panel_driver.md R173, R174) -/

theorem exec_pdSetrot_ready {s : State} (hready : s.pdState = .ready) (rot : BitVec 2) :
    exec (.pdSetrot rot) s = .next ((s.applyRotation rot).done 1) := if_neg (not_not.2 hready)

theorem orientCommand_lines (p : Params) (o : Byte) (l : Bool) :
    (orientCommand p o).foldl csAfter l = true ∧ (orientCommand p o).foldl dcAfter l = true
      ∧ (orientCommand p o).foldl rstAfter l = l := ⟨rfl, rfl, rfl⟩

/-- The effective sizes of the four rotations: exchanged for 1 and 3 (10_state.md R27). -/
theorem rotation_sizes (c : Config) (rot : BitVec 2) :
    (rot = 1 ∨ rot = 3 → (rotW c.toParams rot).toNat = c.panelH ∧ (rotH c.toParams rot).toNat = c.panelW)
      ∧ (rot = 0 ∨ rot = 2 → (rotW c.toParams rot).toNat = c.panelW ∧ (rotH c.toParams rot).toNat = c.panelH) := by
  obtain ⟨hw, hh, -, -⟩ := panel_side_toNat c
  constructor
  · rintro (rfl | rfl)
    · exact ⟨hh, hw⟩
    · exact ⟨hh, hw⟩
  · rintro (rfl | rfl)
    · exact ⟨hw, hh⟩
    · exact ⟨hw, hh⟩

/-- Settles O28: the state first, then the orientation command. -/
theorem pdSetrotSetsGeometry : Obligations.PdSetrotSetsGeometry := by
  intro s rot
  obtain ⟨hswapped, hstraight⟩ := rotation_sizes s.cfg rot
  refine ⟨linkOperationsNeedReady s (.pdSetrot rot) rfl, fun hready =>
    ⟨_, exec_pdSetrot_ready hready rot, rfl, rfl, hswapped, hstraight, rfl⟩⟩

/-- Repeating the orientation command changes nothing in RX, in reset or out of it (42_panel_driver.md R184). -/
theorem rx_orientCommand_twice (c : Config) (r : Rx) (o : Byte) :
    Rx.events c.toParams (Rx.events c.toParams r (orientCommand c.toParams o)) (orientCommand c.toParams o)
      = Rx.events c.toParams r (orientCommand c.toParams o) := by
  have hwire : orientCommand c.toParams o = wireEvents c.opOrient [o] := rfl
  rw [hwire]
  cases hrst : r.rst with
  | false =>
    rw [rx_wireEvents_in_reset hrst, rx_wireEvents_in_reset (by exact hrst)]
    rfl
  | true =>
    rw [rx_orientation hrst, rx_orientation (by exact hrst)]
    simp [Rx.commanded, Rx.violAtCommand, Rx.atLevels]

/-- Settles O29: the second command finds the lines, the geometry and RX as it leaves them. -/
theorem pdSetrotIdempotent : Obligations.PdSetrotIdempotent := by
  intro s t u rot hready ht hu
  rw [exec_pdSetrot_ready hready] at ht
  cases ht
  rw [exec_pdSetrot_ready (by exact hready)] at hu
  cases hu
  have hrx := rx_orientCommand_twice s.cfg s.rx (orientByte s.cfg.toParams rot)
  refine ⟨?_, ?_⟩
  · simp only [State.applyRotation, State.done, State.setRotation, State.emit, orientCommand_lines, hrx]
  · show _ = (s.trace ++ orientCommand s.cfg.toParams _) ++ (s.trace ++ orientCommand s.cfg.toParams _).drop _
    rw [List.drop_left]
    rfl

/-! ### PD_SETWIN (42_panel_driver.md R175, R176) -/

theorem exec_pdSetwin_ready {s : State} (hready : s.pdState = .ready) (x0 y0 x1 y1 : Half) :
    exec (.pdSetwin x0 y0 x1 y1) s = .next ((s.emit (setWindow s.cfg.toParams x0 y0 x1 y1)).done 1) :=
  if_neg (not_not.2 hready)

/-- RX outside reset after an address window: it holds the window and stands at its first cell in memory-write mode,
and has marked a window that is not valid (41_receiver.md R147, R148, R151). -/
theorem rx_setWindow {c : Config} {r : Rx} (hrst : r.rst = true) (x0 y0 x1 y1 : Half) :
    let w : Rx := { r with xs := x0, xe := x1, ys := y0, ye := y1 }
    Rx.events c.toParams r (setWindow c.toParams x0 y0 x1 y1)
      = (w.begun c.toParams c.opMemwrite).atLevels true false := by
  dsimp only
  rw [setWindow_eq_wireEvents, Rx.events_append, Rx.events_append, rx_columnRange hrst, rx_rowRange (by exact hrst),
    rx_memoryWrite (by exact hrst)]
  simp [rangeBytes, wireHalf, Rx.begun, Rx.commanded, Rx.violAtCommand, Rx.atLevels, halfLeft, wholePixels, windowValid]

/-- Settles O30: RX takes the window's five brackets as three wire commands. -/
theorem pdSetwinSendsElevenBytes : Obligations.PdSetwinSendsElevenBytes := by
  intro s x0 y0 x1 y1
  refine ⟨linkOperationsNeedReady s (.pdSetwin x0 y0 x1 y1) rfl, fun hready =>
    ⟨_, exec_pdSetwin_ready hready x0 y0 x1 y1, sent_eq (fun l => setWindow_lines _ l _ _ _ _) s, rfl,
      fun hrst => ?_⟩⟩
  rw [State.done_rx, State.emit_rx, rx_setWindow hrst]
  refine ⟨rfl, rfl, rfl, rfl, rfl, rfl, rfl, fun hinvalid => ?_⟩
  have hmark : ∀ w : Rx, windowValid s.cfg.toParams w = false →
      (w.begun s.cfg.toParams s.cfg.opMemwrite).viol.window = true := fun w hw => by
    simp [Rx.begun, hw]
  exact hmark _ hinvalid

/-! ### PD_DRAWPIXEL (42_panel_driver.md R179) -/

theorem exec_pdDrawpixel_outside {s : State} (hready : s.pdState = .ready) {x y : Word}
    (hout : s.effW.toNat ≤ x.toNat ∨ s.effH.toNat ≤ y.toNat) (color : Half) :
    exec (.pdDrawpixel x y color) s = .next (s.countOob.done 1) :=
  (if_neg (not_not.2 hready)).trans (if_pos hout)

/-- The events of PD_DRAWPIXEL: a window of one cell and its pixel. -/
def pixelEvents (p : Params) (x y : Half) (color : Half) : List Event :=
  setWindow p x y x y ++ btData (wireHalf color)

theorem pixelEvents_lines (p : Params) (x y color : Half) (l : Bool) :
    (pixelEvents p x y color).foldl csAfter l = true ∧ (pixelEvents p x y color).foldl dcAfter l = true
      ∧ (pixelEvents p x y color).foldl rstAfter l = l := by
  simp [pixelEvents, List.foldl_append, setWindow_lines]

theorem exec_pdDrawpixel_inside {s : State} (hready : s.pdState = .ready) {x y : Word}
    (hx : x.toNat < s.effW.toNat) (hy : y.toNat < s.effH.toNat) (color : Half) :
    exec (.pdDrawpixel x y color) s
      = .next ((s.emit (pixelEvents s.cfg.toParams (x.setWidth 16) (y.setWidth 16) color)).done 1) := by
  have hin : ¬ (s.effW.toNat ≤ x.toNat ∨ s.effH.toNat ≤ y.toNat) := by omega
  exact (if_neg (not_not.2 hready)).trans (if_neg hin)

/-- Settles O33: by cases on the pixel's place; the thirteen bytes and six brackets are counted in the events. -/
theorem pdDrawpixelSendsOnePixel : Obligations.PdDrawpixelSendsOnePixel := by
  intro s x y color
  refine ⟨linkOperationsNeedReady s (.pdDrawpixel x y color) rfl,
    fun hready hout => exec_pdDrawpixel_outside hready hout color, fun hready hx hy =>
    ⟨_, exec_pdDrawpixel_inside hready hx hy color, sent_eq (pixelEvents_lines _ _ _ color) s, rfl, ?_⟩⟩
  rw [State.done_trace, State.emit_trace, List.drop_left]
  exact ⟨rfl, rfl⟩

/-- RX on a data bracket of one pixel, while it writes memory with no half pixel pending (41_receiver.md R154). -/
theorem rx_pixel_bracket {p : Params} {o : Byte} {r : Rx} (h : r.Streaming p o) (hwhole : r.half = none)
    (color : Half) :
    Rx.events p r (btData (wireHalf color)) = (Rx.pixel p r color).atLevels true true := by
  have hpixel : (wholePixels (wireHalf color)).foldl (Rx.pixel p) (r.atLevels false true)
      = Rx.pixel p (r.atLevels false true) color := congrArg (Rx.pixel p _) (hi8_append_lo8 color)
  have hlevels : Rx.pixel p (r.atLevels false true) color
      = { (Rx.pixel p r color).atLevels false true with half := r.half } := pixel_with p r false true r.half color
  have hleft : halfLeft (wireHalf color) = (Rx.pixel p r color).half := by
    obtain ⟨-, -, hhalf⟩ := pixel_fields p r color
    rw [hhalf, hwhole]
    exact if_neg (by simp)
  rw [rx_data_bracket, foldl_byte_of_data h.rst h.settle_marked,
    foldl_dataByte_pixels (by exact h.cmd) (by exact h.memwr) (by exact hwhole), hpixel, hlevels, hleft]
  rfl

/-- What an address window leaves of RX's pointer and panel memory. -/
theorem rx_setWindow_pointer {c : Config} {r : Rx} (hrst : r.rst = true) (x0 y0 x1 y1 : Half) :
    let w := Rx.events c.toParams r (setWindow c.toParams x0 y0 x1 y1)
    w.col = x0 ∧ w.row = y0 ∧ w.gram = r.gram := by
  dsimp only
  rw [rx_setWindow hrst]
  exact ⟨rfl, rfl, rfl⟩

theorem cell_congr {r t : Rx} (h : t.gram = r.gram) (pc pr : Nat) : t.cell pc pr = r.cell pc pr := by
  rw [Rx.cell, Rx.cell, h]

/-- A coordinate inside the geometry keeps its value in 16 bits. -/
theorem coordinate_toNat {side : Half} {x : Word} (h : x.toNat < side.toNat) : (x.setWidth 16).toNat = x.toNat := by
  rw [BitVec.toNat_setWidth]
  exact Nat.mod_eq_of_lt (h.trans side.isLt)

/-- Settles O49: the window puts RX's pointer at the position, and the pixel goes to the cell that `Map` gives for it. -/
theorem drawpixelPaintsOneCell : Obligations.DrawpixelPaintsOneCell := by
  intro s t x y color hinv hlink hready hx hy hexec
  rw [exec_pdDrawpixel_inside hready hx hy] at hexec
  cases hexec
  have hrest := hlink.atRest hinv hready
  obtain ⟨hw, hh, -, -⟩ := hinv.geometry (by simp [hready])
  have hxn := coordinate_toNat hx
  have hyn := coordinate_toNat hy
  obtain ⟨hstream, hwhole⟩ := streaming_window (c := s.cfg) hrest.toQuiet (BitVec.le_refl (x.setWidth 16))
    (by rw [hxn, hw]; exact hx) (BitVec.le_refl (y.setWidth 16)) (by rw [hyn, hh]; exact hy)
  obtain ⟨hcol, hrow, hgram⟩ := rx_setWindow_pointer (c := s.cfg) hrest.rst (x.setWidth 16) (y.setWidth 16)
    (x.setWidth 16) (y.setWidth 16)
  have hwf := events_keep_gram_wf hinv.gramForm
    (setWindow s.cfg.toParams (x.setWidth 16) (y.setWidth 16) (x.setWidth 16) (y.setWidth 16))
  rw [State.done_rx, State.emit_rx, pixelEvents, Rx.events_append]
  generalize Rx.events s.cfg.toParams s.rx (setWindow _ _ _ _ _) = w at *
  rw [rx_pixel_bracket hstream hwhole]
  obtain ⟨⟨pc, pr⟩, hmap⟩ := Option.isSome_iff_exists.1 (panelMap_of_pointerInside hstream.inside)
  obtain ⟨-, honpanel, -⟩ := pixelWriteAndAdvance s.cfg w color hwf
  obtain ⟨-, hpainted, hothers⟩ := honpanel pc pr hmap
  rw [hstream.orient, hcol, hrow, hxn, hyn] at hmap
  exact ⟨pc, pr, hmap, hpainted, fun c r hne => (hothers c r hne).trans (cell_congr hgram c r)⟩

/-! ### PD_FILLRECT (42_panel_driver.md R178) -/

/-- A rectangle that PD_FILLRECT drops: it starts outside or has a zero side. -/
def State.dropsRect (s : State) (x y w h : Word) : Prop :=
  s.effW.toNat ≤ x.toNat ∨ s.effH.toNat ≤ y.toNat ∨ w = 0 ∨ h = 0

theorem exec_pdFillrect_dropped {s : State} (hready : s.pdState = .ready) {x y w h : Word}
    (hdrop : s.dropsRect x y w h) (color : Half) :
    exec (.pdFillrect x y w h color) s = .next (s.countOob.done 1) :=
  (if_neg (not_not.2 hready)).trans (if_pos hdrop)

/-- The events of PD_FILLRECT for a rectangle with the sides `w` and `h`: its window and its pixels. -/
def rectEvents (p : Params) (x y : Word) (w h : Nat) (color : Half) : List Event :=
  setWindow p (x.setWidth 16) (y.setWidth 16) (BitVec.ofNat 16 (x.toNat + w - 1)) (BitVec.ofNat 16 (y.toNat + h - 1))
    ++ fillEvents p color (w * h)

/-- The state in which PD_FILLRECT sends: a clamp is counted (60_exceptions.md R231). -/
def State.countedIf (s : State) (clamped : Prop) [Decidable clamped] : State :=
  { s with diagOob := if clamped then satInc s.diagOob else s.diagOob }

theorem ite_countOob (s : State) (clamped : Prop) [Decidable clamped] :
    (if clamped then s.countOob else s) = s.countedIf clamped := by
  unfold State.countedIf
  split <;> rfl

/-- `sent_eq`, with a clamp counted. -/
theorem countedIf_sent_eq {es : List Event} {cs dc : Bool}
    (hlines : ∀ l, es.foldl csAfter l = cs ∧ es.foldl dcAfter l = dc ∧ es.foldl rstAfter l = l) (s : State)
    (clamped : Prop) [Decidable clamped] :
    ((s.countedIf clamped).emit es).done 1 = { s with
      cs := cs, dc := dc, diagOob := if clamped then satInc s.diagOob else s.diagOob,
      rx := Rx.events s.cfg.toParams s.rx es, trace := s.trace ++ es, rsp := 1, busy := false, rspValid := true } := by
  rw [sent_eq hlines]
  rfl

theorem exec_pdFillrect_kept {s : State} (hready : s.pdState = .ready) {x y w h : Word}
    (hkeep : ¬ s.dropsRect x y w h) (color : Half) :
    let w' := min w.toNat (s.effW.toNat - x.toNat)
    let h' := min h.toNat (s.effH.toNat - y.toNat)
    exec (.pdFillrect x y w h color) s
      = .next (((s.countedIf (w' ≠ w.toNat ∨ h' ≠ h.toNat)).emit
          (rectEvents s.cfg.toParams x y w' h' color)).done 1) := by
  dsimp only
  rw [← ite_countOob]
  exact (if_neg (not_not.2 hready)).trans (if_neg hkeep)

/-- A fill of at most 32 pixels sends them one by one. -/
theorem fillEvents_of_few (p : Params) (color : Half) {n : Nat} (h : n ≤ 32) :
    fillEvents p color n = (List.replicate n (btData (wireHalf color))).flatten :=
  if_neg (Nat.not_lt.2 h)

/-- A fill of more than 32 pixels sends them in batches. -/
theorem fillEvents_of_many (p : Params) (color : Half) {n : Nat} (h : 32 < n) :
    fillEvents p color n = (batches p.fillBatchPixels n n).flatMap (fun k => btData (wirePixels color k)) :=
  if_pos h

/-- A fill of at least one pixel is at least one data bracket. -/
theorem fillEvents_eq_brackets (p : Params) (color : Half) {n : Nat} (hn : n ≠ 0) :
    ∃ bss : List (List Byte), bss ≠ [] ∧ fillEvents p color n = bss.flatMap btData := by
  obtain ⟨m, rfl⟩ := Nat.exists_eq_succ_of_ne_zero hn
  unfold fillEvents
  split
  · refine ⟨(batches p.fillBatchPixels (m + 1) (m + 1)).map (wirePixels color), ?_, ?_⟩
    · simp [batches]
    · rw [List.flatMap_map]
  · refine ⟨List.replicate (m + 1) (wireHalf color), ?_, ?_⟩
    · simp
    · rw [List.flatMap_def, List.map_replicate]

theorem rectEvents_lines (p : Params) (x y : Word) {w h : Nat} (hn : w * h ≠ 0) (color : Half) (l : Bool) :
    (rectEvents p x y w h color).foldl csAfter l = true ∧ (rectEvents p x y w h color).foldl dcAfter l = true
      ∧ (rectEvents p x y w h color).foldl rstAfter l = l := by
  obtain ⟨bss, hne, heq⟩ := fillEvents_eq_brackets p color hn
  rw [rectEvents, heq]
  simp [List.foldl_append, setWindow_lines, brackets_lines, hne]

/-- Settles O32: `fillEvents` takes the threshold of 32 pixels, and `batches_spec` says what the batches are. -/
theorem pdFillrectFillsClampedRectangle : Obligations.PdFillrectFillsClampedRectangle := by
  intro s x y w h color
  refine ⟨linkOperationsNeedReady s (.pdFillrect x y w h color) rfl,
    fun hready hdrop => exec_pdFillrect_dropped hready hdrop color, fun hready hx hy hw hh => ?_⟩
  have hkeep : ¬ s.dropsRect x y w h := by
    rintro (h0 | h0 | h0 | h0)
    · omega
    · omega
    · exact hw h0
    · exact hh h0
  intro w' h' n
  have hw' : w' ≠ 0 := by
    have hpos : w.toNat ≠ 0 := fun h0 => hw (BitVec.eq_of_toNat_eq h0)
    omega
  have hh' : h' ≠ 0 := by
    have hpos : h.toNat ≠ 0 := fun h0 => hh (BitVec.eq_of_toNat_eq h0)
    omega
  have hlines := rectEvents_lines s.cfg.toParams x y (Nat.mul_ne_zero hw' hh') color
  obtain ⟨-, -, -, hbatch, -⟩ := s.cfg.bounds
  obtain ⟨hsum, hsizes, hfull⟩ := batches_spec s.cfg.fillBatchPixels hbatch n n (Nat.le_refl n)
  have hexec : exec (.pdFillrect x y w h color) s
      = .next (((s.countedIf (w' ≠ w.toNat ∨ h' ≠ h.toNat)).emit
          (rectEvents s.cfg.toParams x y w' h' color)).done 1) :=
    exec_pdFillrect_kept hready hkeep color
  rw [countedIf_sent_eq hlines] at hexec
  exact ⟨_, fillEvents s.cfg.toParams color n, hexec, by dsimp only, rfl, rfl,
    fun hfew => fillEvents_of_few _ color hfew,
    fun hmany => ⟨_, fillEvents_of_many _ color hmany, hsum, hfull, hsizes⟩⟩

/-! ### PD_SENDDMA (42_panel_driver.md R180) -/

/-- One screen is at least one pixel and fits engine memory (00_scope.md R7, R10). -/
theorem State.Inv.screenBytes_bounds {s : State} (h : s.Inv) :
    1 ≤ s.screenBytes ∧ s.screenBytes ≤ s.cfg.memBytes := by
  obtain ⟨⟨hw, -, hh, -⟩, -, -, -, hmem, -⟩ := s.cfg.bounds
  have hpos := Nat.mul_pos hw hh
  rw [h.screenBytes_eq]
  unfold Params.bufBytes at *
  omega

theorem exec_pdSenddma_outside {s : State} {addr : Word}
    (hout : rangeInMem s.cfg.toParams addr.toNat s.screenBytes = false) :
    exec (.pdSenddma addr) s = .next s.refuse := by
  by_cases hx : s.xfer = .inFlight
  · exact if_pos hx
  by_cases hready : s.pdState ≠ .ready
  · exact (if_neg hx).trans (if_pos hready)
  · exact (if_neg hx).trans ((if_neg hready).trans (if_pos hout))

theorem exec_pdSenddma_starts {s : State} {addr : Word} (hidle : s.xfer = .idle) (hready : s.pdState = .ready)
    (hin : rangeInMem s.cfg.toParams addr.toNat s.screenBytes = true) :
    exec (.pdSenddma addr) s = .next ((s.transferStarted addr).done 1) := by
  show execPdSenddma addr s = _
  rw [execPdSenddma, if_neg (by simp [hidle]), if_neg (not_not.2 hready), if_neg (by simp [hin])]
  dsimp only
  rw [btDataDma_eq_transferStarted]

/-- The transfer's window is closed and its data bracket open. -/
theorem transferEvents_lines (s : State) (l : Bool) :
    let es := s.screenWindow ++ [.cs false, .dc true]
    es.foldl csAfter l = false ∧ es.foldl dcAfter l = true ∧ es.foldl rstAfter l = l := by
  simp [State.screenWindow, List.foldl_append, setWindow_lines, csAfter, dcAfter, rstAfter]

/-- Settles O34: the range check is on one screen, which is at least one byte and fits engine memory. -/
theorem pdSenddmaStartsTransfer : Obligations.PdSenddmaStartsTransfer := by
  intro s addr hinv
  obtain ⟨hpos, hfits⟩ := hinv.screenBytes_bounds
  have hlen := hinv.screenBytes_toNat
  refine ⟨fun hwhy => ?_, fun _ hout => exec_pdSenddma_outside ?_, fun hready hin => ?_⟩
  · rcases hwhy with hflight | hready
    · exact if_pos hflight
    · exact linkOperationsNeedReady s (.pdSenddma addr) rfl hready
  · exact decide_eq_false fun h => absurd h.2 (Nat.not_le.2 hout)
  · have hidle := hinv.idle_of_not_busy (by simp [hready])
    have hsome : decide (BitVec.ofNat 32 s.screenBytes = 0) = false := by
      refine decide_eq_false fun h0 => ?_
      rw [h0] at hlen
      exact absurd hlen (by simp; omega)
    refine ⟨_, exec_pdSenddma_starts hidle hready (decide_eq_true ⟨hfits, hin⟩),
      ?_, rfl, hsome, rfl, rfl, hlen, rfl, rfl⟩
    simp only [State.done, State.transferStarted, State.emit, transferEvents_lines]

/-! ### PD_DMADONE (42_panel_driver.md R181) -/

theorem exec_pdDmadone_idle {s : State} (hidle : s.xfer = .idle) : exec .pdDmadone s = .next (s.done 1) :=
  if_pos hidle

/-- With a transfer in flight PD_DMADONE answers what DMA's record says: completed, or bytes left. -/
theorem exec_pdDmadone_inFlight {s : State} (hflight : s.xfer = .inFlight) (hactive : s.dma.active = true) :
    exec .pdDmadone s = .next (if s.dma.done then s.transferEnded.done 1 else s.done 0) := by
  show execPdDmadone s = _
  rw [execPdDmadone, if_neg (by simp [hflight])]
  rcases btDmaDone_cases s with ⟨hnone, -⟩ | ⟨-, hdone, h⟩ | ⟨-, hdone, h⟩
  · rw [hactive] at hnone
    cases hnone
  · rw [h, hdone]
    rfl
  · rw [h, hdone]
    rfl

/-- Settles O35: `dma.done` says that no byte is left. -/
theorem pdDmadoneObservesCompletion : Obligations.PdDmadoneObservesCompletion := by
  intro s hinv
  refine ⟨exec_pdDmadone_idle, fun hflight hrem => ?_, fun hflight hrem => ?_⟩
  · have hdone : s.dma.done = false := by
      rw [← Bool.not_eq_true, hinv.doneIff hflight]
      exact hrem
    rw [exec_pdDmadone_inFlight hflight (hinv.activeIff.1 hflight), hdone]
    rfl
  · have hdone : s.dma.done = true := (hinv.doneIff hflight).2 hrem
    rw [exec_pdDmadone_inFlight hflight (hinv.activeIff.1 hflight), hdone]
    exact ⟨_, rfl, rfl⟩

/-! ### The driver's transitions (42_panel_driver.md R170) -/

theorem Xfer.inFlight_of_ne_idle {x : Xfer} (h : x ≠ .idle) : x = .inFlight := by
  cases x with
  | idle => exact absurd rfl h
  | inFlight => rfl

/-- Settles O38: by cases on what an instruction can do. -/
theorem driverTransitions : Obligations.DriverTransitions := by
  intro s t i hexec hne
  cases exec_effect hexec with
  | answer _ _ _ => exact absurd rfl hne
  | drop _ => exact absurd rfl hne
  | send _ _ hu _ => cases hu <;> exact absurd (by simp) hne
  | draw _ _ hu _ => cases hu <;> exact absurd (by simp [State.pixStores]) hne
  | clear _ _ => exact absurd (by simp [State.clearBuffers]) hne
  | swap => exact absurd rfl hne
  | rotate _ => exact absurd (by simp [State.applyRotation]) hne
  | receive _ _ => exact absurd rfl hne
  | @bringUp handle hfirst hvalid => exact .inl ⟨hfirst, rfl, handle, rfl, hvalid⟩
  | @startTransfer addr _ hready _ => exact .inr (.inl ⟨hready, rfl, ⟨addr, rfl⟩, rfl⟩)
  | endTransfer hflight _ _ =>
    have hx := Xfer.inFlight_of_ne_idle hflight
    exact .inr (.inr ⟨fun hinv => hinv.busyIff.2 hx, rfl, rfl, hx, rfl, rfl⟩)
  | endNoTransfer hflight _ =>
    have hx := Xfer.inFlight_of_ne_idle hflight
    exact .inr (.inr ⟨fun hinv => hinv.busyIff.2 hx, rfl, rfl, hx, rfl, rfl⟩)

end Sys2Proof.Machine
end

/-! ## The FrameBuffer's operations (43_framebuffer.md) -/

section

namespace Sys2Proof.Machine

open Sys2Proof

/-! ### The two buffers (20_memory.md R61) -/

/-- The other buffer's other buffer is the buffer itself (10_state.md R26). -/
theorem other_buffer : ∀ b : BitVec 1, 1 - b ≠ b ∧ 1 - (1 - b) = b := by decide

theorem buffer_eq_zero_or_one : ∀ b : BitVec 1, b = 0 ∨ b = 1 := by decide

/-- A buffer holds two bytes for each pixel of the panel (00_scope.md R10). -/
theorem bufBytes_eq (p : Params) : p.bufBytes = 2 * (p.panelW * p.panelH) := Nat.mul_comm _ _

/-- Each buffer lies in engine memory (00_scope.md R10). -/
theorem buffer_inside (c : Config) (b : BitVec 1) : bufBase c.toParams b + c.bufBytes ≤ c.memBytes := by
  obtain ⟨-, -, -, -, hmem, -⟩ := c.bounds
  rcases buffer_eq_zero_or_one b with rfl | rfl
  · rw [bufBase_zero]; omega
  · rw [bufBase_one]; omega

/-- The elements of the screen lie in engine memory, in either buffer (43_framebuffer.md R200). -/
theorem State.Inv.elements_inside {s : State} (h : s.Inv) (b : BitVec 1) :
    bufBase s.cfg.toParams b + 2 * (s.effW.toNat * s.effH.toNat) ≤ s.cfg.memBytes := by
  have hbuffer := buffer_inside s.cfg b
  rwa [← h.screenBytes_eq, State.screenBytes, Nat.mul_comm _ 2] at hbuffer

/-- The element of a position inside the screen lies in engine memory, in either buffer. -/
theorem State.Inv.element_inside {s : State} (h : s.Inv) (b : BitVec 1) {x y : Nat} (hx : x < s.effW.toNat)
    (hy : y < s.effH.toNat) :
    bufBase s.cfg.toParams b + 2 * (y * s.effW.toNat + x + 1) ≤ s.cfg.memBytes := by
  have hscreen := h.elements_inside b
  have hin := row_inside (n := 1) hx hy
  omega

/-! ### Elements of a buffer (20_memory.md R64) -/

section

variable {s : State} {b : BitVec 1} {k n : Nat}

/-- An element of the run holds the colour, the high byte first. -/
theorem byteAt_pixStores_element (hmem : bufBase s.cfg.toParams b + 2 * (k + n) ≤ s.cfg.memBytes) (c : Half) {j : Nat}
    (hj : k ≤ j ∧ j < k + n) :
    (s.pixStores b k n c).byteAt (bufBase s.cfg.toParams b + 2 * j) = hi8 c
      ∧ (s.pixStores b k n c).byteAt (bufBase s.cfg.toParams b + 2 * j + 1) = lo8 c := by
  simp only [byteAt_pixStores]
  constructor
  · rw [if_pos (by omega), if_pos (by omega)]
  · rw [if_pos (by omega), if_neg (by omega)]

/-- Any other element keeps both its bytes. -/
theorem byteAt_pixStores_other (c : Half) {j : Nat} (hj : ¬ (k ≤ j ∧ j < k + n)) :
    (s.pixStores b k n c).byteAt (bufBase s.cfg.toParams b + 2 * j) = s.byteAt (bufBase s.cfg.toParams b + 2 * j)
      ∧ (s.pixStores b k n c).byteAt (bufBase s.cfg.toParams b + 2 * j + 1)
          = s.byteAt (bufBase s.cfg.toParams b + 2 * j + 1) := by
  simp only [byteAt_pixStores]
  exact ⟨if_neg (by omega), if_neg (by omega)⟩

/-- A single element, byte by byte. -/
theorem byteAt_pixStores_one (hmem : bufBase s.cfg.toParams b + 2 * (k + 1) ≤ s.cfg.memBytes) (c : Half) (a : Nat) :
    (s.pixStores b k 1 c).byteAt a = if a = bufBase s.cfg.toParams b + 2 * k then hi8 c
      else if a = bufBase s.cfg.toParams b + 2 * k + 1 then lo8 c else s.byteAt a := by
  obtain ⟨hhi, hlo⟩ := byteAt_pixStores_element hmem c ⟨Nat.le_refl k, Nat.lt_succ_self k⟩
  split
  · rename_i ha
    rw [ha, hhi]
  split
  · rename_i ha
    rw [ha, hlo]
  · rw [byteAt_pixStores, if_neg (by omega)]

end

/-! ### The cleared buffers (43_framebuffer.md R202) -/

/-- Clearing is a run of stores in each buffer. -/
theorem clearBuffers_eq (s : State) :
    s.clearBuffers = (s.pixStores 0 0 (s.cfg.panelW * s.cfg.panelH) s.cfg.defaultColor).pixStores 1 0
      (s.cfg.panelW * s.cfg.panelH) s.cfg.defaultColor := rfl

/-- A byte of a cleared buffer. -/
theorem byteAt_clearBuffers (s : State) (b : BitVec 1) {k : Nat} (hk : k < s.cfg.bufBytes) :
    s.clearBuffers.byteAt (bufBase s.cfg.toParams b + k)
      = if k % 2 = 0 then hi8 s.cfg.defaultColor else lo8 s.cfg.defaultColor := by
  obtain ⟨-, -, -, -, hmem, -⟩ := s.cfg.bounds
  have hlen := bufBytes_eq s.cfg.toParams
  have hcfg : (s.pixStores 0 0 (s.cfg.panelW * s.cfg.panelH) s.cfg.defaultColor).cfg = s.cfg := rfl
  rw [clearBuffers_eq, byteAt_pixStores, byteAt_pixStores, hcfg, bufBase_zero, bufBase_one]
  rcases buffer_eq_zero_or_one b with rfl | rfl
  · rw [bufBase_zero, if_neg (by omega), if_pos (by omega), show 0 + k - (0 + 2 * 0) = k by omega]
  · rw [bufBase_one, if_pos (by omega), show s.cfg.bufBytes + k - (s.cfg.bufBytes + 2 * 0) = k by omega]

/-- A cleared buffer reads as the pixels of the default colour. -/
theorem bytesAt_clearBuffers (s : State) (b : BitVec 1) :
    s.clearBuffers.bytesAt (bufBase s.cfg.toParams b) s.cfg.bufBytes
      = wirePixels s.cfg.defaultColor (s.cfg.panelW * s.cfg.panelH) := by
  have hlen := bufBytes_eq s.cfg.toParams
  refine List.ext_getElem? fun k => ?_
  rw [bytesAt_getElem?]
  split
  · rename_i hk
    rw [byteAt_clearBuffers s b hk, wirePixels_getElem? _ _ _ (by omega)]
  · rw [List.getElem?_eq_none (by rw [wirePixels_length]; omega)]

/-! ### The screen sent (43_framebuffer.md R202, R207) -/

theorem screen_lines (s : State) (bs : List Byte) (l : Bool) :
    (s.screenWindow ++ btData bs).foldl csAfter l = true ∧ (s.screenWindow ++ btData bs).foldl dcAfter l = true
      ∧ (s.screenWindow ++ btData bs).foldl rstAfter l = l := by
  simp [List.foldl_append, State.screenWindow, setWindow_lines]

/-- What an operation that sent events and answered 1 leaves unchanged. -/
theorem sent_frame {es : List Event} {cs dc : Bool}
    (hlines : ∀ l, es.foldl csAfter l = cs ∧ es.foldl dcAfter l = dc ∧ es.foldl rstAfter l = l) (s : State) :
    let t := (s.emit es).done 1
    t = { s with cs := cs, dc := dc, rx := t.rx, trace := t.trace, rsp := 1, busy := false, rspValid := true } :=
  sent_eq hlines s

theorem exec_fbInit_ready {s : State} (hready : s.pdState = .ready) :
    exec .fbInit s = .next ((s.clearBuffers.emit (s.screenWindow ++ btData
      (s.clearBuffers.bytesAt (bufBase s.cfg.toParams s.front) s.cfg.bufBytes))).done 1) :=
  if_neg (not_not.2 hready)

theorem exec_fbPresent_ready {s : State} (hready : s.pdState = .ready) :
    exec .fbPresent s = .next ((s.emit (s.screenWindow ++ btData
      (s.bytesAt (bufBase s.cfg.toParams s.front) s.screenBytes))).done 1) :=
  if_neg (not_not.2 hready)

/-- Settles O20: the cleared front buffer is what the data bracket carries. -/
theorem fbInitClearsAndPresents : Obligations.FbInitClearsAndPresents := by
  intro s
  refine ⟨linkOperationsNeedReady s .fbInit rfl, fun hready => ?_⟩
  have hlen := bufBytes_eq s.cfg.toParams
  have hexec := exec_fbInit_ready hready
  rw [bytesAt_clearBuffers] at hexec
  refine ⟨_, hexec, sent_frame (screen_lines s _) s.clearBuffers, fun b i hi => ⟨?_, ?_⟩,
    fun a ha => byteAt_clearBuffers_above s ha, rfl⟩
  · exact (byteAt_clearBuffers s b (by omega)).trans (if_pos (by omega))
  · exact (byteAt_clearBuffers s b (k := 2 * i + 1) (by omega)).trans (if_neg (by omega))

/-- Settles O25: the bracket carries `bytesAt` of the front buffer. -/
theorem fbPresentSendsFrontBuffer : Obligations.FbPresentSendsFrontBuffer := by
  intro s _
  refine ⟨linkOperationsNeedReady s .fbPresent rfl, fun hready => ?_⟩
  refine ⟨_, _, exec_fbPresent_ready hready, sent_frame (screen_lines s _) s, rfl, bytesAt_length ..,
    fun k hk => ?_⟩
  rw [bytesAt_length] at hk
  rw [bytesAt_getElem?, if_pos hk]

/-! ### FB_SWAP (43_framebuffer.md R206) -/

theorem exec_fbSwap (s : State) : exec .fbSwap s = .next ({ s with front := s.back }.done 1) := rfl

/-- Settles O24: the tag alone moves, and `1 - (1 - front)` is `front`. -/
theorem fbSwapExchangesTags : Obligations.FbSwapExchangesTags := by
  intro s
  obtain ⟨hne, hback⟩ := other_buffer s.front
  exact ⟨_, exec_fbSwap s, rfl, hne, hback, fun _ => rfl, _, exec_fbSwap _, hback, congrArg (1 - ·) hback, rfl,
    rfl⟩

/-! ### The ownership interlock (43_framebuffer.md R201) -/

/-- An operation that draws is refused while the back buffer is owned. -/
theorem exec_drawsBack_owned {i : Instr} (hi : drawsBack i = true) {s : State} (hown : s.owned = true) :
    exec i s = .next s.refuse := by
  cases i with
  | fbFill color => exact if_pos hown
  | fbSetpixel x y color => exact if_pos hown
  | fbDrawline x y len color => exact if_pos hown
  | _ => cases hi

/-- In Ready no transfer is in flight, so nothing owns the back buffer. -/
theorem State.Inv.not_owned_of_ready {s : State} (h : s.Inv) (hready : s.pdState = .ready) : s.owned = false := by
  have hidle := h.idle_of_not_busy (by simp [hready])
  simp [State.owned, hidle]

/-- An operation that draws leaves every byte outside the back buffer. -/
theorem byteAt_of_drawsBack {s t : State} (h : s.Inv) {i : Instr} (hi : drawsBack i = true) (hexec : exec i s = .next t)
    {a : Nat} (ha : a < bufBase s.cfg.toParams s.back ∨ bufBase s.cfg.toParams s.back + s.cfg.bufBytes ≤ a) :
    t.byteAt a = s.byteAt a := by
  rcases (exec_effect hexec).byteAt h a with hsame | ⟨rfl, -⟩ | ⟨-, hlow, hhigh⟩
  · exact hsame
  · cases hi
  · omega

/-! ### Drawing into a free back buffer (43_framebuffer.md R203 to R205) -/

section

variable {s : State} (hfree : s.owned = false)

include hfree

theorem exec_fbFill_free (color : Half) :
    exec (.fbFill color) s = .next ((s.pixStores s.back 0 (s.effW.toNat * s.effH.toNat) color).done 1) :=
  if_neg (ne_true_of_eq_false hfree)

theorem exec_fbSetpixel_inside {x y : Word} (hx : x.toNat < s.effW.toNat) (hy : y.toNat < s.effH.toNat)
    (color : Half) :
    exec (.fbSetpixel x y color) s
      = .next ((s.pixStores s.back (y.toNat * s.effW.toNat + x.toNat) 1 color).done 1) :=
  (if_neg (ne_true_of_eq_false hfree)).trans (if_pos ⟨hx, hy⟩)

theorem exec_fbSetpixel_outside {x y : Word} (hout : s.effW.toNat ≤ x.toNat ∨ s.effH.toNat ≤ y.toNat)
    (color : Half) : exec (.fbSetpixel x y color) s = .next (s.countOob.done 1) :=
  (if_neg (ne_true_of_eq_false hfree)).trans (if_neg (by omega))

theorem exec_fbDrawline_outside {x y : Word} (hout : s.effW.toNat ≤ x.toNat ∨ s.effH.toNat ≤ y.toNat)
    (len : Word) (color : Half) : exec (.fbDrawline x y len color) s = .next (s.countOob.done 1) :=
  (if_neg (ne_true_of_eq_false hfree)).trans (if_pos hout)

/-- The span goes up to the end of its row, and a clamp is counted. -/
theorem exec_fbDrawline_inside {x y : Word} (hx : x.toNat < s.effW.toNat) (hy : y.toNat < s.effH.toNat)
    (len : Word) (color : Half) :
    let n := min len.toNat (s.effW.toNat - x.toNat)
    exec (.fbDrawline x y len color) s
      = .next (((s.countedIf (n ≠ len.toNat)).pixStores s.back (y.toNat * s.effW.toNat + x.toNat) n
          color).done 1) := by
  dsimp only
  rw [← ite_countOob]
  exact (if_neg (ne_true_of_eq_false hfree)).trans (if_neg (by omega))

end

/-- An operation that draws answers 1 where the back buffer is free, whether it draws, clamps or drops. -/
theorem exec_drawsBack_free {i : Instr} (hi : drawsBack i = true) {s : State} (hfree : s.owned = false) :
    ∃ t, exec i s = .next t ∧ t.rsp = 1 := by
  cases i with
  | fbFill color => exact ⟨_, exec_fbFill_free hfree color, rfl⟩
  | fbSetpixel x y color =>
    by_cases hin : x.toNat < s.effW.toNat ∧ y.toNat < s.effH.toNat
    · exact ⟨_, exec_fbSetpixel_inside hfree hin.1 hin.2 color, rfl⟩
    · exact ⟨_, exec_fbSetpixel_outside hfree (by omega) color, rfl⟩
  | fbDrawline x y len color =>
    by_cases hin : x.toNat < s.effW.toNat ∧ y.toNat < s.effH.toNat
    · exact ⟨_, exec_fbDrawline_inside hfree hin.1 hin.2 len color, rfl⟩
    · exact ⟨_, exec_fbDrawline_outside hfree (by omega) len color, rfl⟩
  | _ => cases hi

/-- Settles O26: the obligation's test is `Owned()`. -/
theorem ownedBufferIsNotDrawn : Obligations.OwnedBufferIsNotDrawn := by
  intro s _
  refine ⟨fun i hi => ⟨fun hown => ?_, fun hfree => ?_⟩, _, exec_fbSwap s, rfl⟩
  · exact exec_drawsBack_owned hi (decide_eq_true hown)
  · exact exec_drawsBack_free hi (decide_eq_false hfree)

/-- Settles O21: the run of stores covers the whole back buffer. -/
theorem fbFillWritesBackBuffer : Obligations.FbFillWritesBackBuffer := by
  intro s color h
  refine ⟨exec_drawsBack_owned rfl, fun hfree => ?_⟩
  have hexec := exec_fbFill_free hfree color
  refine ⟨_, hexec, rfl, fun i hi => ?_, fun _ => byteAt_of_drawsBack h rfl hexec⟩
  exact byteAt_pixStores_element (by rw [Nat.zero_add]; exact h.elements_inside s.back) color (by omega)

/-- Settles O22: one element is two bytes. -/
theorem fbSetpixelWritesOneElement : Obligations.FbSetpixelWritesOneElement := by
  intro s x y color h
  refine ⟨exec_drawsBack_owned rfl, fun hfree ⟨hx, hy⟩ => ?_,
    fun hfree hout => exec_fbSetpixel_outside hfree hout color⟩
  exact ⟨_, exec_fbSetpixel_inside hfree hx hy color, rfl,
    byteAt_pixStores_one (h.element_inside s.back hx hy) color⟩

/-- The elements of a clamped span are those of its row from its first column on, as many as are left of it in the row
(43_framebuffer.md R205). -/
theorem span_element_iff {w x y len row col : Nat} (hx : x < w) (hcol : col < w) :
    (y * w + x ≤ row * w + col ∧ row * w + col < y * w + x + min len (w - x))
      ↔ row = y ∧ x ≤ col ∧ col - x < len := by
  rcases Nat.lt_trichotomy row y with hrow | rfl | hrow
  · have hbefore : (row + 1) * w ≤ y * w := Nat.mul_le_mul_right w hrow
    rw [Nat.succ_mul] at hbefore
    omega
  · omega
  · have hafter : (y + 1) * w ≤ row * w := Nat.mul_le_mul_right w hrow
    rw [Nat.succ_mul] at hafter
    omega

/-- Settles O23: `span_element_iff` says which elements the run of stores covers. -/
theorem fbDrawlineClampsToRow : Obligations.FbDrawlineClampsToRow := by
  intro s x y len color h
  refine ⟨exec_drawsBack_owned rfl, fun hfree ⟨hx, hy⟩ => ?_,
    fun _ hexec _ => byteAt_of_drawsBack h rfl hexec,
    fun hfree hout => exec_fbDrawline_outside hfree hout len color⟩
  refine ⟨_, exec_fbDrawline_inside hfree hx hy len color, rfl, ?_, fun row col hrow hcol a ha => ?_⟩
  · have hclamp : min len.toNat (s.effW.toNat - x.toNat) ≠ len.toNat
        ↔ s.effW.toNat - x.toNat < len.toNat := by omega
    exact if_congr hclamp rfl rfl
  · have hspan := span_element_iff (y := y.toNat) (len := len.toNat) (row := row) hx hcol
    have hmem := h.elements_inside s.back
    have hrest : x.toNat + min len.toNat (s.effW.toNat - x.toNat) ≤ s.effW.toNat := by omega
    have hin := row_inside hrest hy
    subst ha
    rw [← hspan]
    exact ⟨byteAt_pixStores_element (Nat.le_trans (by omega) hmem) color, byteAt_pixStores_other color⟩

/-! ### Draw, swap, present (43_framebuffer.md R208) -/

/-- Settles O47: FB_PRESENT reads the buffer that FB_SETPIXEL wrote, since FB_SWAP has made it the front buffer. -/
theorem setpixelSwapPresent : Obligations.SetpixelSwapPresent := by
  intro s x y color h hready hx hy
  have hdraw := exec_fbSetpixel_inside (h.not_owned_of_ready hready) hx hy color
  have hbyte := byteAt_pixStores_one (h.element_inside s.back hx hy) color
  refine ⟨_, _, _, _, hdraw, exec_fbSwap _, exec_fbPresent_ready hready, rfl,
    (bytesAt_length ..).trans h.screenBytes_eq, fun k hk => ?_⟩
  rw [bytesAt_length] at hk
  rw [bytesAt_getElem?, if_pos hk]
  refine congrArg some ((hbyte (bufBase s.cfg.toParams s.back + k)).trans ?_)
  simp only [Nat.add_assoc, Nat.add_left_cancel_iff]

end Sys2Proof.Machine
end

/-! ## A screen painted on the panel (43_framebuffer.md R207, 41_receiver.md R155, R157) -/

section

namespace Sys2Proof.Machine

open Sys2Proof

/-! ### The pixels of a stream (41_receiver.md R154) -/

theorem wholePixels_length (bs : List Byte) : (wholePixels bs).length = bs.length / 2 := by
  induction bs using wholePixels.induct with
  | case1 hi lo bs ih =>
    simp only [wholePixels, List.length_cons, ih]
    omega
  | case2 bs hshort =>
    match bs, hshort with
    | [], _ => rfl
    | [b], _ => simp [wholePixels]
    | hi :: lo :: bs, h => exact absurd rfl (h hi lo bs)

theorem wholePixels_getElem? {bs : List Byte} {k : Nat} {hi lo : Byte} (hhi : bs[2 * k]? = some hi)
    (hlo : bs[2 * k + 1]? = some lo) : (wholePixels bs)[k]? = some (pixelOf hi lo) := by
  induction bs using wholePixels.induct generalizing k with
  | case1 first second bs ih =>
    cases k with
    | zero =>
      cases hhi
      cases hlo
      rfl
    | succ k => exact ih hhi hlo
  | case2 bs hshort =>
    match bs, hshort with
    | [], _ => cases hhi
    | [b], _ => cases hlo
    | first :: second :: bs, h => exact absurd rfl (h first second bs)

/-- RX's panel memory after a data bracket, while it writes memory with no half pixel pending. -/
theorem gram_pixel_bracket {p : Params} {o : Byte} {r : Rx} (h : r.Streaming p o) (hwhole : r.half = none)
    (bs : List Byte) :
    (Rx.events p r (btData bs)).gram = ((wholePixels bs).foldl (Rx.pixel p) r).gram := by
  have hgram := congrArg Rx.gram (pixels_with p r false true r.half (wholePixels bs))
  rw [rx_data_bracket, foldl_byte_of_data h.rst h.settle_marked,
    foldl_dataByte_pixels (by exact h.cmd) (by exact h.memwr) (by exact hwhole)]
  exact hgram

/-! ### The pointer's way through the window (41_receiver.md R155) -/

/-- In row-major order the cell number `y * w + x` determines the cell. -/
theorem cell_of_number {w x y x' y' : Nat} (hx : x < w) (hx' : x' < w) (h : y * w + x = y' * w + x') :
    x = x' ∧ y = y' := by
  have hspan := (span_element_iff (len := 1) (y := y') (row := y) hx' hx).1 (by omega)
  omega

/-- Two positions that `Map` takes to one cell are the same (41_receiver.md R157). -/
theorem panelMap_injective {p : Params} {o : Byte} {x y x' y' : Nat} {cell : Nat × Nat}
    (h : panelMap p o x y = some cell) (h' : panelMap p o x' y' = some cell) : x = x' ∧ y = y' := by
  have heq := (unmapped_of_panelMap h).symm.trans (unmapped_of_panelMap h')
  cases heq
  exact ⟨rfl, rfl⟩

/-- RX's window is the whole of a screen `w` wide and `ht` high. -/
structure Rx.FullWindow (w ht : Nat) (r : Rx) : Prop where
  left : r.xs.toNat = 0
  right : r.xe.toNat + 1 = w
  top : r.ys.toNat = 0
  bottom : r.ye.toNat + 1 = ht

/-- RX has taken the pixels `pxs` of a full screen, in row-major order: its pointer stands behind them, and each is in
the cell that `Map` gives for its position. -/
structure Rx.Painted (p : Params) (o : Byte) (w ht : Nat) (pxs : List Half) (r : Rx) : Prop
    extends Rx.Streaming p o r, Rx.FullWindow w ht r where
  gramForm : Gram.wf p r.gram = true
  position : pxs.length < w * ht → r.row.toNat * w + r.col.toNat = pxs.length
  painted : ∀ x y px, x < w → y < ht → pxs[y * w + x]? = some px →
    ∀ pc pr, panelMap p o x y = some (pc, pr) → r.cell pc pr = some px

section

variable {c : Config} {o : Byte} {w ht : Nat} {r : Rx} {pxs : List Half}

/-- The advanced pointer stands at the next cell, but for the last cell of the window. -/
theorem advance_position (hwin : r.FullWindow w ht) (hin : r.pointerInside c.toParams)
    (hmore : r.row.toNat * w + r.col.toNat + 1 < w * ht) :
    r.advance.row.toNat * w + r.advance.col.toNat = r.row.toNat * w + r.col.toNat + 1 := by
  obtain ⟨-, -, hxe, -, hye⟩ := hin
  obtain ⟨hleft, hright, -, hbottom⟩ := hwin
  rw [BitVec.le_def] at hxe hye
  rw [advance_eq]
  dsimp only
  by_cases hcol : r.col = r.xe
  · have hrow : r.row ≠ r.ye := by
      intro hrow
      rw [hrow, hcol] at hmore
      have hlast : (r.ye.toNat + 1) * w = w * ht := by rw [hbottom, Nat.mul_comm]
      rw [Nat.succ_mul] at hlast
      omega
    have hnext : (r.row + 1).toNat = r.row.toNat + 1 := by bv_omega
    rw [if_pos hcol, if_pos hcol, if_neg hrow, hnext, hleft, hcol, Nat.succ_mul]
    omega
  · have hnext : (r.col + 1).toNat = r.col.toNat + 1 := by bv_omega
    rw [if_neg hcol, if_neg hcol, hnext, Nat.add_assoc]

/-- One more pixel goes to the position behind those already taken, and leaves them. -/
theorem Rx.Painted.pixel (h : r.Painted c.toParams o w ht pxs) (hmore : pxs.length < w * ht) (px : Half) :
    (Rx.pixel c.toParams r px).Painted c.toParams o w ht (pxs ++ [px]) := by
  have hpos := h.position hmore
  obtain ⟨⟨pc, pr⟩, hmap⟩ := Option.isSome_iff_exists.1 (panelMap_of_pointerInside h.inside)
  obtain ⟨-, honpanel, -⟩ := pixelWriteAndAdvance c r px h.gramForm
  obtain ⟨-, hpainted, hothers⟩ := honpanel pc pr hmap
  have hcolumn : r.col.toNat < w := by
    obtain ⟨-, -, hxe, -, -⟩ := h.inside
    rw [BitVec.le_def] at hxe
    have hright := h.right
    omega
  rw [h.orient] at hmap
  have hstream := streaming_pixel h.toStreaming px
  have heq := pixel_eq c.toParams r px
  refine { hstream with
    left := by rw [heq]; exact h.left
    right := by rw [heq]; exact h.right
    top := by rw [heq]; exact h.top
    bottom := by rw [heq]; exact h.bottom
    gramForm := pixel_keeps_gram_wf h.gramForm px
    position := fun hlast => ?_
    painted := fun x y q hx hy hq qc qr hmapq => ?_ }
  · rw [List.length_append, List.length_singleton] at hlast ⊢
    rw [heq, ← hpos]
    exact advance_position h.toFullWindow h.inside (by rwa [hpos])
  · by_cases hnew : y * w + x = pxs.length
    · obtain ⟨rfl, rfl⟩ := cell_of_number hx hcolumn (hnew.trans hpos.symm)
      rw [hmap] at hmapq
      rw [hnew, List.getElem?_concat_length] at hq
      cases hmapq
      cases hq
      exact hpainted
    · have hne : (qc, qr) ≠ (pc, pr) := by
        intro hcell
        rw [hcell] at hmapq
        obtain ⟨rfl, rfl⟩ := panelMap_injective hmapq hmap
        exact hnew hpos
      rw [hothers qc qr hne]
      have hlt := (List.getElem?_eq_some_iff.1 hq).1
      rw [List.length_append, List.length_singleton] at hlt
      rw [List.getElem?_append_left (by omega)] at hq
      exact h.painted x y q hx hy hq qc qr hmapq

/-- A stream of at most one screen paints its pixels one after the other. -/
theorem Rx.Painted.pixels (h : r.Painted c.toParams o w ht []) (hfit : pxs.length ≤ w * ht) :
    (pxs.foldl (Rx.pixel c.toParams) r).Painted c.toParams o w ht pxs := by
  induction pxs using List.reverseRecOn with
  | nil => exact h
  | append_singleton pxs px ih =>
    rw [List.length_append, List.length_singleton] at hfit
    rw [List.foldl_concat]
    exact (ih (by omega)).pixel (by omega) px

end

/-! ### FB_PRESENT on the panel -/

section

variable {s : State}

theorem pred_toNat_succ {side : Half} (h : 1 ≤ side.toNat) : (side - 1).toNat + 1 = side.toNat := by bv_omega

/-- The window of the whole screen leaves RX at its first pixel (42_panel_driver.md R175, 43_framebuffer.md R207). -/
theorem painted_screenWindow (h : s.Inv) (hlink : s.LinkClean) (hready : s.pdState = .ready) :
    let w := Rx.events s.cfg.toParams s.rx s.screenWindow
    w.Painted s.cfg.toParams s.orient s.effW.toNat s.effH.toNat [] ∧ w.half = none := by
  have hrest := hlink.atRest h hready
  obtain ⟨hx, hx1, hy, hy1⟩ := screen_inside h hready
  obtain ⟨hstream, hwhole⟩ := streaming_window (c := s.cfg) hrest.toQuiet hx hx1 hy hy1
  obtain ⟨-, -, hw1, hh1⟩ := h.geometry (by simp [hready])
  have hwin : Rx.events s.cfg.toParams s.rx s.screenWindow = _ :=
    rx_setWindow (c := s.cfg) hrest.rst 0 0 (s.effW - 1) (s.effH - 1)
  exact ⟨{ hstream with
    left := by rw [hwin]; rfl
    right := by rw [hwin]; exact pred_toNat_succ hw1
    top := by rw [hwin]; rfl
    bottom := by rw [hwin]; exact pred_toNat_succ hh1
    gramForm := events_keep_gram_wf h.gramForm _
    position := fun _ => by rw [hwin]; exact Nat.zero_mul _
    painted := fun _ _ _ _ _ hnone => by cases hnone }, hwhole⟩

/-- Settles O48: the stream is one screen of pixels, painted from the window's first cell on. -/
theorem presentPaintsWholePanel : Obligations.PresentPaintsWholePanel := by
  intro s t h hlink hready hexec x y hx hy
  rw [exec_fbPresent_ready hready] at hexec
  cases hexec
  obtain ⟨hpainted, hwhole⟩ := painted_screenWindow h hlink hready
  obtain ⟨hw, hh, -, -⟩ := h.geometry (by simp [hready])
  have hin := row_inside (n := 1) hx hy
  have hbyte : ∀ k, k < s.screenBytes →
      (s.bytesAt (bufBase s.cfg.toParams s.front) s.screenBytes)[k]?
        = some (s.byteAt (bufBase s.cfg.toParams s.front + k)) := fun k hk => by rw [bytesAt_getElem?, if_pos hk]
  have hsize : s.screenBytes = s.effW.toNat * s.effH.toNat * 2 := rfl
  have hscreen := hpainted.pixels
    (pxs := wholePixels (s.bytesAt (bufBase s.cfg.toParams s.front) s.screenBytes))
    (by rw [wholePixels_length, bytesAt_length]; omega)
  have hpixel := wholePixels_getElem? (hbyte (2 * (y * s.effW.toNat + x)) (by omega)) (hbyte _ (by omega))
  obtain ⟨⟨pc, pr⟩, hmap⟩ := Option.isSome_iff_exists.1
    ((panelMap_isSome_iff s.cfg.toParams s.orient x y).2 ⟨by rwa [hw], by rwa [hh]⟩)
  refine ⟨pc, pr, hmap, ?_⟩
  rw [State.done_rx, State.emit_rx, Rx.events_append,
    cell_congr (gram_pixel_bracket hpainted.toStreaming hwhole _)]
  exact hscreen.painted x y _ hx hy hpixel pc pr hmap

end

end Sys2Proof.Machine
end

/-! ## Every operation completes with a response (60_exceptions.md R220) -/

section

namespace Sys2Proof.Machine

open Sys2Proof

/-- The two values of a response, but for the getters, which answer a size (00_scope.md R16). -/
theorem Effect.response {s t : State} {i : Instr} (h : Effect s i t) (hi : hostOperation i = true) :
    t.rsp = 0 ∨ t.rsp = 1 ∨ i = .pdGetw ∨ i = .pdGeth := by
  cases h with
  | answer _ _ hv => exact hv
  | receive _ hwire => rw [hi] at hwire; cases hwire
  | _ => exact .inr (.inl rfl)

/-- An operation abandoned by the ENGINE's own reset has a next state too: the operation that is cut has one
(70_reset_and_hazards.md R240). -/
theorem runAbandoned_next (s : State) (k ms : Nat) :
    ∃ es, runAbandoned s k ms = .next (s.consume.engineReset es) := by
  obtain ⟨t, hexec, -⟩ := exec_performs s.latchedInstr s
  have hlatched : runLatched s = .next t := hexec
  exact ⟨_, by rw [runAbandoned, hlatched]⟩

theorem runLatched_frees_port (s : State) : ∃ t, runLatched s = .next t ∧ t.busy = false := by
  obtain ⟨t, hexec, heff⟩ := exec_performs s.latchedInstr s
  exact ⟨t, hexec, (heff.responds (Laws.hostOperation_decodeCw _ _)).1⟩

/-- With an operation accepted the ENGINE's step is total and frees the port: the operation ends, or the reset state
is free (10_state.md R29, R50). -/
theorem stepBusy_frees_port (s : State) : ∃ t, stepBusy s = .next t ∧ t.busy = false := by
  unfold stepBusy
  split
  case h_1 k ms _ _ =>
    obtain ⟨es, hreset⟩ := runAbandoned_next s k ms
    exact ⟨_, hreset, rfl⟩
  case h_2 => exact runLatched_frees_port s

/-- Settles O19: what an operation can do (`Effect`) ends in a response and keeps the port; the busy step runs the latched
operation or abandons it. -/
theorem everyOperationResponds : Obligations.EveryOperationResponds := by
  refine ⟨fun s i hi => ?_, fun s hbusy => ?_⟩
  · obtain ⟨t, hexec, heff⟩ := exec_performs i s
    obtain ⟨hfree, hvalid⟩ := heff.responds hi
    have hport := heff.samePort
    exact ⟨t, hexec, hfree, hvalid, hport.cfg, hport.inputs, hport.op, hport.a0, hport.a1, hport.a2, hport.a3,
      hport.a4, hport.memEpoch, heff.response hi⟩
  · obtain ⟨t, hstep, hfree⟩ := stepBusy_frees_port s
    exact ⟨t, by rw [step, if_pos hbusy, hstep], hfree⟩

end Sys2Proof.Machine
end

/-! ## The ENGINE's own reset (70_reset_and_hazards.md R240) -/

section

namespace Sys2Proof.Machine

open Sys2Proof

/-! ### What RX sees of the reset (41_receiver.md R159) -/

/-- With the reset line high, only chip-select and the command/data line return. -/
theorem seeEngineReset_of_high {r : Rx} (h : r.rst = true) :
    r.seeEngineReset = { r with cs := true, dc := true } := if_pos h

/-- With the reset line low, the ENGINE's own reset is the rising edge that ends the panel's reset pulse. -/
theorem seeEngineReset_of_low {r : Rx} (h : r.rst = false) :
    r.seeEngineReset = { r with
      cs := true, dc := true, rst := true, settleMs := 0,
      viol := { r.viol with rstPulse := r.viol.rstPulse || decide (r.holdMs < rstHoldMin) } } := by
  have hne : ¬ r.rst = true := by simp [h]
  rw [Rx.seeEngineReset, if_neg hne, Rx.resetRelease]
  by_cases hs : r.holdMs < rstHoldMin <;> simp [hs, Rx.setRstPulse]

/-- RX after the falling edge of its reset line and `ms` milliseconds of the pulse. -/
theorem events_pulse_cut (p : Params) {r : Rx} (h : r.rst = true) (ms : Nat) :
    Rx.events p r [.rst false, .wait ms] = { Rx.panelReset p r with holdMs := ms } := by
  have hwait : Rx.event p (Rx.panelReset p r) (.wait ms) = { Rx.panelReset p r with holdMs := ms } := by
    simp [event_wait, Rx.panelReset]
  show Rx.event p (Rx.event p r (.rst false)) (.wait ms) = _
  rw [event_rst_low p h, hwait]

/-! ### Where an operation is cut -/

/-- Between events, or before an event that takes no time, the cut leaves the events before it. -/
theorem cutEvents_of_no_wait {es : List Event} {k : Nat} (h : ∀ d, es[k]? ≠ some (.wait d)) (ms : Nat) :
    cutEvents es k ms = es.take k := by
  unfold cutEvents
  split
  · rename_i d hd
    exact absurd hd (h d)
  · exact List.append_nil _

/-- Inside a wait, the cut leaves a part of the wait too. -/
theorem cutEvents_of_wait {es : List Event} {k d : Nat} (h : es[k]? = some (.wait d)) (ms : Nat) :
    cutEvents es k ms = es.take k ++ [.wait (min ms d)] := by
  rw [cutEvents, h]

/-- PD_INIT cut in its second event, the hold time of the panel's reset pulse (42_panel_driver.md R172). -/
theorem cutEvents_initEvents_hold (c : Config) {ms : Nat} (h : ms ≤ c.tRstHold) :
    cutEvents (initEvents c) 1 ms = [.rst false, .wait ms] := by
  have hhold : (initEvents c)[1]? = some (.wait c.tRstHold) := rfl
  rw [cutEvents_of_wait hhold, Nat.min_eq_left h]
  rfl

/-! ### The reset as a step -/

/-- With no operation in progress a step takes the reset, whichever of its two inputs asks for it. -/
theorem step_of_por {s : State} {rest : List Input} (hb : s.busy = false)
    (hin : s.inputs = .por :: rest ∨ ∃ k ms, s.inputs = .porDuring k ms :: rest) :
    step s = .next (s.consume.engineReset []) := by
  obtain hin | ⟨k, ms, hin⟩ := hin <;> simp [step, stepIdle, hb, hin]

/-- With an operation in progress a step abandons it, after RX has taken the events up to the cut. -/
theorem step_of_porDuring {s u : State} {k ms : Nat} {rest : List Input} {es : List Event} (hb : s.busy = true)
    (hin : s.inputs = .porDuring k ms :: rest) (hexec : exec s.latchedInstr s = .next u)
    (htrace : u.trace = s.trace ++ es) :
    step s = .next (s.consume.engineReset (cutEvents es k ms)) := by
  have hlatched : runLatched s = .next u := hexec
  have hnew : newEvents s u = es := by rw [newEvents, htrace, List.drop_left]
  simp [step, stepBusy, runAbandoned, hb, hin, hlatched, hnew]

/-- The operation that the latches' word decodes to is the one in progress (10_state.md R21). -/
theorem latchedInstr_of_decode {s : State} {i : Instr}
    (h : decode s.cfg.toParams (.cw (packCw s.op s.a0 s.a1 s.a2 s.a3 s.a4)) = .ok i) : s.latchedInstr = i :=
  Except.ok.inj h

/-- Settles O5: `State.engineReset` is the reset state but for RX, which sees the lines return from wherever the events
before the cut have left it; the operation in progress is a host operation, so it has such events. -/
theorem engineResetKeepsReceiver : Obligations.EngineResetKeepsReceiver := by
  intro s rest leaves
  have hleaves : s.inputs.tail = rest → ∀ es,
      leaves (Rx.events s.cfg.toParams s.rx es) (s.consume.engineReset es) := fun htail _ =>
    ⟨by rw [← htail]; rfl, seeEngineReset_of_high, seeEngineReset_of_low⟩
  refine ⟨fun hb hin => ⟨_, step_of_por hb hin, hleaves ?_ []⟩, fun i k ms hb hin hdec => ?_⟩
  · obtain hin | ⟨k, ms, hin⟩ := hin <;> rw [hin, List.tail_cons]
  · obtain rfl := latchedInstr_of_decode hdec
    obtain ⟨u, hexec, heff⟩ := exec_performs s.latchedInstr s
    obtain ⟨es, hemitted⟩ := heff.emitted (Laws.hostOperation_decodeCw _ _)
    exact ⟨_, u, es, cutEvents es k ms, hexec, hemitted.trace, fun h => cutEvents_of_no_wait h ms,
      fun _ h => cutEvents_of_wait h ms, step_of_porDuring hb hin hexec hemitted.trace,
      hleaves (by rw [hin, List.tail_cons]) _⟩

/-- Settles O6: the cut leaves RX in its reset state with `ms` as its hold time, and the ENGINE's reset is the rising
edge that measures it; no violation was set before. -/
theorem resetDuringPulseMarksReceiver : Obligations.ResetDuringPulseMarksReceiver := by
  intro s h ms rest hinv hlink hb hlatched hfirst hvalid hin hhold
  obtain ⟨-, -, hline⟩ := hlink.lines
  have hrst : s.rx.rst = true := hline.trans hinv.rstHigh
  have hstep := step_of_porDuring (es := initEvents s.cfg) hb hin (hlatched ▸ exec_pdInit_first hfirst hvalid) rfl
  rw [cutEvents_initEvents_hold s.cfg hhold] at hstep
  have hrx : (s.consume.engineReset [.rst false, .wait ms]).rx
      = { Rx.panelReset s.cfg.toParams s.rx with
          cs := true, dc := true, rst := true, holdMs := ms, settleMs := 0,
          viol := { s.rx.viol with rstPulse := s.rx.viol.rstPulse || decide (ms < rstHoldMin) } } := by
    show (Rx.events s.cfg.toParams s.rx [.rst false, .wait ms]).seeEngineReset = _
    rw [events_pulse_cut _ hrst, seeEngineReset_of_low rfl]
    rfl
  refine ⟨_, hstep, rfl, rfl, rfl, rfl, rfl, ?_⟩
  rw [hrx]
  refine ⟨rfl, rfl, rfl, rfl, ?_⟩
  rw [hlink.noViol]
  exact Bool.false_or _

end Sys2Proof.Machine
end
